-- ==== Sys2Proof/Word.lean ====
section
/-! DEFINITION. The word types of the TCB. A value whose width a rule fixes is a bit vector. A value whose width is a
parameter of R10 (PIN_W, HREG_W, HADDR_W, BREG_W) is a number below two to that width, since the width is an argument of
the model; `field` takes bits out of such a number (log 2). -/

namespace Sys2Proof

/-- One byte of the bus, of a frame or of a payload (R12, R85). -/
abbrev Byte := BitVec 8

/-- A 16-bit value: a coordinate (R47, R170), or a register's fields as R36 to R51 lay them out. -/
abbrev Word := BitVec 16

end Sys2Proof
end

