-- ==== Sys2Proof/Config.lean ====
section
/-! DEFINITION. The parameters of rule R10, the arguments of the model: `Literals` holds those for which R10 shows one
value, `Params` adds those with several admitted values. The state carries them unchanged (R11, log 2). -/

namespace Sys2Proof

/-- The parameters for which R10 shows one value: addresses, lengths, masks, counts, waits, payloads and
widths. -/
structure Literals where
  /-- DEV_ADDR: the bus device address, in the 7-bit DEV field (R118). -/
  devAddr : BitVec 7
  /-- REG_BASE: the mode/command register (R80). -/
  regBase : Nat
  /-- FRAME_LAYOUT_LEN: bytes of the touch report frame (R121). -/
  frameLayoutLen : Nat
  /-- BL_FRAME_LEN: bytes of the bootloader status frame (R123). -/
  blFrameLen : Nat
  /-- HS_BIT: the handshake bit of the mode byte (R200). -/
  hsBit : Nat
  /-- HS_MAX_ATTEMPTS (R203). -/
  hsMaxAttempts : Nat
  /-- HS_RETRY_MS (R203). -/
  hsRetryMs : Byte
  /-- BL_BUSY_BIT: the busy bit of the bootloader status byte (R174). -/
  blBusyBit : Nat
  /-- BL_MAX_POLLS (R236). -/
  blMaxPolls : Nat
  /-- BL_POLL_MS (R236). -/
  blPollMs : Byte
  /-- RST_HOLD_MS (R233). -/
  rstHoldMs : Byte
  /-- SR_WAIT_MS (R234). -/
  srWaitMs : Byte
  /-- KEY_WAIT_MS (R235). -/
  keyWaitMs : Byte
  /-- EO_WAIT_MS (R237). -/
  eoWaitMs : Byte
  /-- SOFT_RESET_CMD (R234). -/
  softResetCmd : List Byte
  /-- KEY_SEQ: the security key (R235). -/
  keySeq : List Byte
  /-- SLEEP_CMD (R273). -/
  sleepCmd : List Byte
  /-- WAKE_CMD (R274). -/
  wakeCmd : List Byte
  /-- COUNT_MASK: the count's bits of touch_status (R172). -/
  countMask : Byte
  /-- MAX_POINTS (R172). -/
  maxPoints : Nat
  /-- PIN_W: bits of a GPIO line number (R34). -/
  pinW : Nat
  /-- HREG_W: bits of a host register (R31). -/
  hregW : Nat
  /-- HADDR_W: bits of a host register index (R31). -/
  haddrW : Nat
  /-- BREG_W: bits of a device register sub-address (R81, R118). -/
  bregW : Nat
  deriving DecidableEq, Repr

/-- The values R10 shows. -/
def Literals.shown : Literals :=
  { devAddr := 0x24
    regBase := 0x00
    frameLayoutLen := 14
    blFrameLen := 16
    hsBit := 7
    hsMaxAttempts := 20
    hsRetryMs := 5
    blBusyBit := 4
    blMaxPolls := 10
    blPollMs := 20
    rstHoldMs := 10
    srWaitMs := 50
    keyWaitMs := 88
    eoWaitMs := 20
    softResetCmd := [0x01]
    keySeq := [0x00, 0xFF, 0xA5, 0x00, 0x01, 0x02, 0x03, 0x04, 0x05, 0x06, 0x07]
    sleepCmd := [0x01, 0x08]
    wakeCmd := [0x00, 0x08]
    countMask := 0x0F
    maxPoints := 2
    pinW := 6
    hregW := 16
    haddrW := 8
    bregW := 8 }

/-- FRAME_READ_LEN: 14 by default, 13 admitted (R10, C1, D4). -/
inductive FrameReadLen where
  | fourteen
  | thirteen
  deriving DecidableEq, Repr

/-- The number of bytes a FRAME_RD asks for (R161). -/
def FrameReadLen.toNat : FrameReadLen → Nat
  | .fourteen => 14
  | .thirteen => 13

/-- GETXY_CLEAR: PRESERVE by default, FIX admitted (R10, R272, D12). -/
inductive GetxyClear where
  | preserve
  | fix
  deriving DecidableEq, Repr

/-- SLEEP_MODE_UPDATE: OPTIMISTIC by default, ON_SUCCESS admitted (R10, R273, D13). -/
inductive SleepModeUpdate where
  | optimistic
  | onSuccess
  deriving DecidableEq, Repr

/-- The parameters. They are fixed for the life of a model and no host write reaches them (R11). -/
structure Params where
  /-- The parameters with one shown value. -/
  lit : Literals
  frameReadLen : FrameReadLen
  getxyClear : GetxyClear
  sleepModeUpdate : SleepModeUpdate
  /-- EXPLICIT_BL_EXIT: false; true is refused when INIT starts (R240, D14). -/
  explicitBlExit : Bool
  deriving DecidableEq, Repr

/-- The value R10 shows for each of them. -/
def Params.default : Params :=
  { lit := Literals.shown, frameReadLen := .fourteen, getxyClear := .preserve, sleepModeUpdate := .optimistic
    explicitBlExit := false }

end Sys2Proof
end

