-- ==== Sys2Proof/Syntax.lean ====
section
/-! DEFINITION. The TCB's instructions: the six host commands (CMD16, R112) and the eight bus transactions (BUSREQ,
R120), one constructor per row of the opcode table. -/

namespace Sys2Proof

/-- An instruction of the opcode table. The first six are what the host writes to CMD; the other eight are what the
TCB sends to the chip, "the TCB's instructions to the chip" (R120). -/
inductive Instr where
  /-- INIT, word 0x0001 (R230). -/
  | init
  /-- READ_DATA, word 0x0002 (R271). -/
  | readData
  /-- GET_COORDS max_count, word 0x00m3; max_count is 0 to 15, unscaled (R113, R272). -/
  | getCoords (maxCount : Nat)
  /-- ENTER_SLEEP, word 0x0004 (R273). -/
  | enterSleep
  /-- EXIT_SLEEP, word 0x0005 (R274). -/
  | exitSleep
  /-- CLOSE, word 0x0006 (R275). -/
  | close
  /-- SOFT_RESET_WR: header 0x240001, payload 01 (R234). -/
  | softResetWr
  /-- KEY_UNLOCK_WR: header 0x24000B, payload KEY_SEQ (R235). -/
  | keyUnlockWr
  /-- BL_STATUS_RD: header 0xA40010 (R162). -/
  | blStatusRd
  /-- FRAME_RD of FRAME_READ_LEN bytes: header 0xA4000E for 14, 0xA4000D for 13 (R161). -/
  | frameRd (len : Nat)
  /-- HS_RD: header 0xA40001 (R201). -/
  | hsRd
  /-- HS_WR: header 0x240001, payload the one byte `value` (R202). -/
  | hsWr (value : Byte)
  /-- SLEEP_WR: header 0x240002, payload 01 08 (R273). -/
  | sleepWr
  /-- WAKE_WR: header 0x240002, payload 00 08 (R274). -/
  | wakeWr
  deriving DecidableEq, Repr

end Sys2Proof
end

