-- ==== Sys2Proof/WellFormed.lean ====
section
/-! DEFINITION. Which instructions the encodings of rules R111 and R120 can hold. -/

namespace Sys2Proof

/-- max_count fits the 4-bit ARG field (R111, R113); FRAME_RD's length is an admitted FRAME_READ_LEN (R10, R120).
Every other instruction is well formed as it stands. -/
def Instr.wf : Instr → Bool
  | .init => true
  | .readData => true
  | .getCoords maxCount => decide (maxCount ≤ 15)
  | .enterSleep => true
  | .exitSleep => true
  | .close => true
  | .softResetWr => true
  | .keyUnlockWr => true
  | .blStatusRd => true
  | .frameRd len => len == 14 || len == 13
  | .hsRd => true
  | .hsWr _ => true
  | .sleepWr => true
  | .wakeWr => true

end Sys2Proof
end

