-- ==== Sys2Proof/Decode.lean ====
section
/-! DEFINITION. Decoding the two encoded formats of the opcode table, CMD16 (R110–R114) and BUSREQ (R117, R118, R120,
R126, R127), total on any bits, each rejection by name; then the encoder, written from the same tables. -/

namespace Sys2Proof

/-- Why an encoded item is no instruction. -/
inductive DecodeError where
  /-- RSV ≠ 0 in a command word (R114). -/
  | reservedBits
  /-- OP is 0 or 7 to 15 (R114). -/
  | illegalOpcode
  /-- ARG ≠ 0 on a command other than GET_COORDS (R114). -/
  | argumentNotAllowed
  /-- The header is wider than DIR, DEV, REG and LEN (R118). -/
  | headerWidth
  /-- DEV is not DEV_ADDR: the TCB never sends it (R80, R118). -/
  | wrongDevice
  /-- REG is not REG_BASE: the TCB never sends it (R80, R118). -/
  | wrongRegister
  /-- LEN is none of the widths the TCB issues in this direction (R88). -/
  | wrongLength
  /-- The payload is not LEN bytes for a write, or not empty for a read (R118). -/
  | payloadSize
  /-- The payload is not one the TCB sends (R120). -/
  | wrongPayload
  /-- The bytes end inside an item (R126). -/
  | truncated
  deriving DecidableEq, Repr

/-- An encoded instruction: one command word (R110), or a bus request's header and payload (R118). -/
inductive Encoded where
  | cmd16 (w : Nat)
  | busreq (h : Nat) (payload : List Byte)
  deriving DecidableEq, Repr

/-- The field of `w` bits from bit `lo` up: `v[lo + w - 1 : lo]`, zero-extended (R12). -/
def field (v lo w : Nat) : Nat := v / 2 ^ lo % 2 ^ w

/-- OP, bits [3:0] of a command word (R111). -/
def cmdOp (w : Nat) : BitVec 4 := BitVec.ofNat 4 w

/-- ARG, bits [7:4] of a command word (R111). -/
def cmdArg (w : Nat) : BitVec 4 := BitVec.ofNat 4 (w / 2 ^ 4)

/-- RSV, the bits of a command word from bit 8 up: [15:8] of a 16-bit register (R111). -/
def cmdRsv (w : Nat) : Nat := w / 2 ^ 8

/-- Decodes a command word (R112, R114). GET_COORDS alone takes the ARG field, zero-extended (R113). -/
def decodeCmd16 (w : Nat) : Except DecodeError Instr :=
  if cmdRsv w ≠ 0 then .error .reservedBits
  else if cmdOp w = 3 then .ok (.getCoords (cmdArg w).toNat)
  else if cmdOp w = 0 ∨ 6 < (cmdOp w).toNat then .error .illegalOpcode
  else if cmdArg w ≠ 0 then .error .argumentNotAllowed
  else if cmdOp w = 1 then .ok .init
  else if cmdOp w = 2 then .ok .readData
  else if cmdOp w = 4 then .ok .enterSleep
  else if cmdOp w = 5 then .ok .exitSleep
  else .ok .close

/-- The bits of a header: 8 of DIR and DEV, BREG_W of REG, 8 of LEN; 24 as R10 shows BREG_W (R118). -/
def Literals.headerW (l : Literals) : Nat := 16 + l.bregW

/-- REG_BASE as the BREG_W bits of REG carry it (R10, R118). -/
def Literals.busReg (l : Literals) : Nat := field l.regBase 0 l.bregW

/-- DIR, the top bit of a header, bit 23 of 24: 1 is a read (R118). -/
def headerDir (l : Literals) (h : Nat) : Bool := h.testBit (15 + l.bregW)

/-- DEV, the seven bits below DIR, [22:16] of 24 (R118). -/
def headerDev (l : Literals) (h : Nat) : BitVec 7 := BitVec.ofNat 7 (h / 2 ^ (8 + l.bregW))

/-- REG, BREG_W bits from bit 8 up, [15:8] of a header of 24 (R118). -/
def headerReg (l : Literals) (h : Nat) : Nat := field h 8 l.bregW

/-- LEN, bits [7:0] of a header (R118). -/
def headerLen (h : Nat) : Byte := BitVec.ofNat 8 h

/-- The header of fields DIR, DEV, REG and LEN, from the top (R118). -/
def packHeader (l : Literals) (read : Bool) (dev : BitVec 7) (reg : Nat) (len : Byte) : Nat :=
  ((read.toNat * 2 ^ 7 + dev.toNat) * 2 ^ l.bregW + field reg 0 l.bregW) * 2 ^ 8 + len.toNat

/-- Decodes a bus request, with the addresses, widths, lengths and payloads of `l` (R10). Two pairs of transactions
share a header; SLEEP_WR and WAKE_WR differ in payload, and a one-byte write is named by where it falls in the event
order: HS_WR inside a poll, SOFT_RESET_WR in bring-up (R127). `inPoll` is that position. -/
def decodeBusReq (l : Literals) (inPoll : Bool) (h : Nat) (payload : List Byte) : Except DecodeError Instr :=
  if 2 ^ l.headerW ≤ h then .error .headerWidth
  else if headerDev l h ≠ l.devAddr then .error .wrongDevice
  else if headerReg l h ≠ l.busReg then .error .wrongRegister
  else if headerDir l h then
    if payload ≠ [] then .error .payloadSize
    else if headerLen h = 1 then .ok .hsRd
    else if headerLen h = 13 then .ok (.frameRd 13)
    else if headerLen h = 14 then .ok (.frameRd 14)
    else if headerLen h = BitVec.ofNat 8 l.blFrameLen then .ok .blStatusRd
    else .error .wrongLength
  else if payload.length ≠ (headerLen h).toNat then .error .payloadSize
  else if inPoll ∧ payload.length = 1 then .ok (.hsWr (payload.headD 0))
  else if payload = l.softResetCmd then .ok .softResetWr
  else if payload = l.keySeq then .ok .keyUnlockWr
  else if payload = l.sleepCmd then .ok .sleepWr
  else if payload = l.wakeCmd then .ok .wakeWr
  else if payload.length ∈ [l.softResetCmd, l.keySeq, l.sleepCmd, l.wakeCmd].map List.length then .error .wrongPayload
  else .error .wrongLength

/-- Decodes an encoded item; `inPoll` matters to a one-byte bus write only (R127). -/
def decode (l : Literals) (inPoll : Bool) : Encoded → Except DecodeError Instr
  | .cmd16 w => decodeCmd16 w
  | .busreq h payload => decodeBusReq l inPoll h payload

/-- How many payload bytes follow a header: LEN for a write, none for a read (R126). -/
def payloadLength (l : Literals) (h : Nat) : Nat := if headerDir l h then 0 else (headerLen h).toNat

/-- The whole bytes a header takes: 3 as R10 shows BREG_W (R126). -/
def Literals.headerBytes (l : Literals) : Nat := (l.headerW + 7) / 8

/-- The low `n` bytes of a number, the most significant first (log 13). -/
def toBytes : Nat → Nat → List Byte
  | 0, _ => []
  | n + 1, v => BitVec.ofNat 8 (v / 2 ^ (8 * n)) :: toBytes n v

/-- The number that bytes make, the most significant first (log 13). -/
def ofBytes (bytes : List Byte) : Nat := bytes.foldl (fun v b => v * 2 ^ 8 + b.toNat) 0

/-- Decodes the first bus request of a byte sequence, the header's most significant byte first (log 13), and answers
the bytes after it. The item's length comes from DIR and LEN alone (R126). -/
def decodeBusBytes (l : Literals) (inPoll : Bool) (bytes : List Byte) : Except DecodeError (Instr × List Byte) :=
  let h := ofBytes (bytes.take l.headerBytes)
  let rest := bytes.drop l.headerBytes
  if bytes.length < l.headerBytes then .error .truncated
  else if rest.length < payloadLength l h then .error .truncated
  else (decodeBusReq l inPoll h (rest.take (payloadLength l h))).map fun i => (i, rest.drop (payloadLength l h))

/-- The instruction whose opcode-table row a header matches, given the header and a payload of LEN zero bytes, for
the table gives the payload no bits (log 14); the parameters are as R10 shows them. A one-byte write with payload 00 is
HS_WR, since SOFT_RESET_WR sends 01; SLEEP_WR and WAKE_WR are told apart by the first payload
byte, and 00 is WAKE_WR's (R127); KEY_UNLOCK_WR is alone in its header. -/
def busRowOfHeader (h : Nat) : Option Instr :=
  if h = 0x24000B then some .keyUnlockWr
  else if h = 0x240002 then some .wakeWr
  else (decodeBusReq .shown true h (List.replicate (payloadLength .shown h) 0)).toOption

/-- The instruction the decoder reads from a table word of `nbits` bits, numbered as the opcode table numbers them: a
CMD16 word or a BUSREQ header. -/
def decodeTableWord (nbits w : Nat) : Option Instr :=
  if nbits = 16 then
    if w < 2 ^ 16 then (decodeCmd16 w).toOption else none
  else if nbits = 24 then
    if w < 2 ^ 24 then busRowOfHeader w else none
  else none

/-- A command word from its fields: RSV = 0 (R111). -/
def packCmd (arg op : BitVec 4) : Nat := arg.toNat * 2 ^ 4 + op.toNat

/-- A write request's encoding (R118, R120). -/
def encodeWrite (l : Literals) (payload : List Byte) : Encoded :=
  .busreq (packHeader l false l.devAddr l.regBase (BitVec.ofNat 8 payload.length)) payload

/-- A read request's encoding (R118, R120). -/
def encodeRead (l : Literals) (len : Nat) : Encoded :=
  .busreq (packHeader l true l.devAddr l.regBase (BitVec.ofNat 8 len)) []

/-- The words of a well-formed instruction, with the addresses, lengths and payloads of `l` (R112, R120). -/
def encode (l : Literals) : Instr → Encoded
  | .init => .cmd16 (packCmd 0 1)
  | .readData => .cmd16 (packCmd 0 2)
  | .getCoords maxCount => .cmd16 (packCmd (BitVec.ofNat 4 maxCount) 3)
  | .enterSleep => .cmd16 (packCmd 0 4)
  | .exitSleep => .cmd16 (packCmd 0 5)
  | .close => .cmd16 (packCmd 0 6)
  | .softResetWr => encodeWrite l l.softResetCmd
  | .keyUnlockWr => encodeWrite l l.keySeq
  | .blStatusRd => encodeRead l l.blFrameLen
  | .frameRd len => encodeRead l len
  | .hsRd => encodeRead l 1
  | .hsWr value => encodeWrite l [value]
  | .sleepWr => encodeWrite l l.sleepCmd
  | .wakeWr => encodeWrite l l.wakeCmd

/-- Where in the event order an instruction is issued, as far as decoding needs it: HS_WR only inside a poll (R127). -/
def Instr.inPoll : Instr → Bool
  | .hsWr _ => true
  | _ => false

/-- The bytes of an encoded bus request, header first (R118, R126); a command word is no byte sequence. -/
def Encoded.busBytes (l : Literals) : Encoded → Option (List Byte)
  | .cmd16 _ => none
  | .busreq h payload => some (toBytes l.headerBytes h ++ payload)

end Sys2Proof
end

