-- ==== Sys2Proof/Machine/State.lean ====
section
/-! DEFINITION. The state of the TCB: every register and every piece of hidden state the spec names, the outstanding
port request, the model's own channels to the outside (`inputs`, `trace`), and the reset state. All of it is plain
data. -/

namespace Sys2Proof.Machine

/-- ST, the sequencer's top state; its value in STATUS is `St.code` (R37). -/
inductive St where
  | uninit
  | claim
  | resetting
  | softReset
  | keyUnlock
  | awaitBootExit
  | enterOperational
  | operational
  | poll
  | power
  | closing
  | failed
  deriving DecidableEq, Repr

/-- LBL, the label of the next port interaction or internal step of the running procedure (R52). -/
inductive Lbl where
  | idle
  | clRst
  | clInt
  | tdRst
  | rsAssert
  | rsHold1
  | rsRelease
  | rsHold2
  | srWr
  | srWait
  | kyWr
  | kyWait
  | blDly
  | blRd
  | eoDly
  | eoRd
  | plRd
  | hsRd
  | hsWr
  | hsDly
  | plDec
  | pwWr
  | csRst
  | csInt
  | done
  deriving DecidableEq, Repr

/-- MODE, the operating mode the source lists; a function of ST and SLEEPING, never stored (R39). -/
inductive Mode where
  | resetting
  | bootloaderExit
  | operationalHandshake
  | operational
  | sleeping
  deriving DecidableEq, Repr

/-- The result codes (R320). -/
inductive ResultCode where
  | ok
  | errBus
  /-- Reserved; nothing raises it (R320, D19). -/
  | errNoMem
  | errInit
  | errNoSession
  | errIllegalCmd
  | errSessionActive
  deriving DecidableEq, Repr

/-- The DIAG flags, bits 0 to 8 in this order (R43). -/
structure Diag where
  srWrFail : Bool
  keyWrFail : Bool
  blRdFail : Bool
  blTimeout : Bool
  eoRdFail : Bool
  frameRdFail : Bool
  hsGaveUp : Bool
  pwrWrFail : Bool
  blBitClear : Bool
  deriving DecidableEq, Repr

/-- One (x, y, strength) triple (R47, R48). -/
structure Point where
  x : Word
  y : Word
  s : Byte
  deriving DecidableEq, Repr

/-- The registers whose reading during a command can be torn (R99): COUNT, P0_*, P1_*, OUT_COUNT, the output slots and
CNT. -/
structure Published where
  /-- COUNT, bits [1:0] (R46). -/
  count : BitVec 2
  /-- P0_X, P0_Y, P0_S (R47). -/
  p0 : Point
  /-- P1_X, P1_Y, P1_S (R47). -/
  p1 : Point
  /-- OUT_COUNT.OCOUNT, bits [1:0] (R49). -/
  ocount : BitVec 2
  /-- OUT_COUNT.ANY, bit 8 (R49). -/
  any : Bool
  /-- OUT_X0, OUT_Y0, OUT_S0 (R48). -/
  out0 : Point
  /-- OUT_X1, OUT_Y1, OUT_S1 (R48). -/
  out1 : Point
  /-- CNT.HS_ATTEMPTS, bits [4:0] (R45). -/
  hsAttempts : BitVec 5
  /-- CNT.BL_POLLS, bits [11:8] (R45). -/
  blPolls : BitVec 4
  deriving DecidableEq, Repr

/-- An edge of a GPIO line (R327). -/
inductive Edge where
  | falling
  | rising
  deriving DecidableEq, Repr

/-- The direction of a GPIO claim (R331). -/
inductive PinDir where
  | out
  | inEdge (e : Edge)
  deriving DecidableEq, Repr

/-- A bus request: the four header fields and, for a write, the data bytes in bus order (R118). -/
structure BusReq where
  /-- DIR: true is a read. -/
  read : Bool
  dev : BitVec 7
  reg : Nat
  len : Byte
  data : List Byte
  deriving DecidableEq, Repr

/-- REQ, an outstanding request to the bus, the delay timer or the GPIO port, with its operands (R55). -/
inductive Req where
  | bus (r : BusReq)
  | delay (ms : Byte)
  | claim (pin : Nat) (dir : PinDir)
  deriving DecidableEq, Repr

/-- What the TCB sends out: one entry for each port interaction it starts, each `touch_irq` and each value a host read
returns, in the one total order of R93. -/
inductive Event where
  | bus (r : BusReq)
  | delay (ms : Byte)
  | gpioClaim (pin : Nat) (dir : PinDir)
  | gpioSet (pin : Nat) (level : Bool)
  | gpioRelease (pin : Nat)
  | touchIrq
  | hostValue (index : Nat) (value : Nat)
  deriving DecidableEq, Repr

/-- What the environment may do (R14, R338). An answer is the answer to the request that is outstanding when it is
taken. -/
inductive Input where
  /-- The hardware reset input is asserted (R360). -/
  | hardwareReset
  /-- `wr index, value` (R124). -/
  | hostWrite (index : Nat) (value : Nat)
  /-- `rd index` (R124); `draw` picks among the values R99 allows while BUSY = 1. -/
  | hostRead (index : Nat) (draw : Nat)
  /-- A read response (OK, K, D…): K is the length of `bytes` (R82, R119). -/
  | readAnswer (ok : Bool) (bytes : List Byte)
  /-- A write response (R84). -/
  | writeAnswer (ok : Bool)
  /-- The delay timer reports done (R330). -/
  | delayDone
  /-- The answer to a GpioClaim (R331). -/
  | claimAnswer (ok : Bool)
  /-- The GPIO port reports an edge (R326). -/
  | pinEdge (pin : Nat) (edge : Edge)
  /-- The answer to a request that a hardware reset dropped; it is ignored (R361). -/
  | lateAnswer
  /-- Nothing from outside: the TCB goes on by itself. -/
  | tick
  deriving DecidableEq, Repr

/-- The whole machine. `params`, `seen`, `inputs` and `trace` are the model's own fields (log 1, 2, 4); every other
field is state the spec names. -/
structure State where
  /-- The parameters, the arguments of the model (R10, R11); no step changes them. -/
  params : Params
  /-- CFG, host index 0x01, HREG_W bits (R34). -/
  cfg : Nat
  /-- ST, half of the sequencer position SEQ (R37, R52). -/
  st : St
  /-- LBL, the other half (R52). -/
  lbl : Lbl
  /-- SLEEPING (R40). -/
  sleeping : Bool
  /-- RST_CLAIMED (R41). -/
  rstClaimed : Bool
  /-- INT_CLAIMED (R41). -/
  intClaimed : Bool
  /-- RESULT, host index 0x03 (R42). -/
  result : ResultCode
  /-- DIAG, host index 0x04 (R43). -/
  diag : Diag
  /-- The point set, the output slots and CNT (R45–R49). -/
  regs : Published
  /-- What R99 lets a host read of `regs` return while a command runs: their values before the command and after each
  write of it. Empty while BUSY = 0. -/
  seen : List Published
  /-- FRAME, FRAME_LAYOUT_LEN bytes (R50). -/
  frame : List Byte
  /-- BLBUF, BL_FRAME_LEN bytes (R51). -/
  blbuf : List Byte
  /-- HSB, the handshake's one-byte buffer (R53). -/
  hsb : Byte
  /-- HA, the current handshake attempt (R53). -/
  ha : Nat
  /-- BI, the current bootloader poll (R53). -/
  bi : Nat
  /-- CUR_OP (R54). -/
  curOp : BitVec 4
  /-- CUR_ARG (R54). -/
  curArg : BitVec 4
  /-- REQ: none, or the one outstanding request (R55). -/
  req : Option Req
  /-- The `touch_irq` output: true in the state an active edge leaves, for one step (R58, R326). -/
  touchIrq : Bool
  /-- The environment's moves still to come, the next one first. -/
  inputs : List Input
  /-- Everything the TCB has sent out, the newest first. -/
  trace : List Event
  deriving DecidableEq, Repr

/-- The TCB has no fault outcome (R324), so no constructor stands here: `step` cannot answer a fault. -/
inductive Fault : Type where
  deriving DecidableEq, Repr

/-- The named refusals. -/
inductive Refusal where
  /-- An instruction with no meaning; no arm of `exec` raises it. Safe. -/
  | notModelled (mnemonic : String)
  /-- EXPLICIT_BL_EXIT_UNMODELLED: INIT starts and parameter EXPLICIT_BL_EXIT is true (R240, R324). Raised by INIT
  only. Safe: the model stops. -/
  | explicitBlExitUnmodelled
  /-- A read response outside the bus port's contract: K > LEN, or OK = 1 with K < LEN (R119, I6: "the environment has
  no such move, and a model offered one declines it"). Raised by the read transactions. Safe: the model stops. -/
  | busContract
  /-- A bus transaction asked for where the sequencer does not issue it (R127 and the pseudocode labels fix where each
  is issued). Raised by the bus transactions' meanings when `exec` is applied away from the label; `step` never asks
  for one there. Safe: the model stops. -/
  | offSequence
  deriving DecidableEq, Repr

/-- The point (0, 0, 0) (R58). -/
def Point.zero : Point := { x := 0, y := 0, s := 0 }

/-- All of R99's registers at 0 (R58, R231, R275). -/
def Published.zero : Published :=
  { count := 0, p0 := Point.zero, p1 := Point.zero, ocount := 0, any := false,
    out0 := Point.zero, out1 := Point.zero, hsAttempts := 0, blPolls := 0 }

/-- DIAG = 0x0000 (R58). -/
def Diag.zero : Diag :=
  { srWrFail := false, keyWrFail := false, blRdFail := false, blTimeout := false, eoRdFail := false,
    frameRdFail := false, hsGaveUp := false, pwrWrFail := false, blBitClear := false }

/-- The machine right after a hardware reset (R58, R360), the parameters at the values R10 shows, and nothing sent or
offered yet. -/
def State.reset : State :=
  { params := Params.default
    cfg := 0
    st := .uninit
    lbl := .idle
    sleeping := false
    rstClaimed := false
    intClaimed := false
    result := .ok
    diag := Diag.zero
    regs := Published.zero
    seen := []
    frame := List.replicate Literals.shown.frameLayoutLen 0
    blbuf := List.replicate Literals.shown.blFrameLen 0
    hsb := 0
    ha := 0
    bi := 0
    curOp := 0
    curArg := 0
    req := none
    touchIrq := false
    inputs := []
    trace := [] }

end Sys2Proof.Machine
end

