-- ==== Sys2Proof/Machine/Operands.lean ====
section
/-! DEFINITION. The operands: the fields of CFG (R34), the ARG operand of GET_COORDS (R113), and the wire codec's pure
functions of buffer bytes (R170–R174, R200). -/

namespace Sys2Proof.Machine

/-- CFG.RST_EN, bit 0: a reset line is configured (R34). -/
def State.rstEn (s : State) : Bool := s.cfg.testBit 0

/-- CFG.RST_LVL, bit 1: the level that asserts reset (R34). -/
def State.rstLvl (s : State) : Bool := s.cfg.testBit 1

/-- CFG.INT_EN, bit 2: an interrupt line is configured (R34). -/
def State.intEn (s : State) : Bool := s.cfg.testBit 2

/-- CFG.INT_LVL, bit 3: the active level of the interrupt line (R34). -/
def State.intLvl (s : State) : Bool := s.cfg.testBit 3

/-- CFG.RST_PIN, PIN_W bits from bit 4 up: [9:4] (R34, R113). -/
def State.rstPin (s : State) : Nat := field s.cfg 4 s.params.lit.pinW

/-- CFG.INT_PIN, the PIN_W bits above RST_PIN: [15:10] (R34, R113). -/
def State.intPin (s : State) : Nat := field s.cfg (4 + s.params.lit.pinW) s.params.lit.pinW

/-- The change into the active level: falling for INT_LVL = 0, rising for INT_LVL = 1 (R327). -/
def State.activeEdge (s : State) : Edge := if s.intLvl then .rising else .falling

/-- max_count = zext(CUR_ARG), 0 to 15 (R113, R272). -/
def State.maxCount (s : State) : Nat := s.curArg.toNat

/-- The big-endian coordinate extractor (R170). -/
def be16 (hi lo : Byte) : Word := hi.zeroExtend 16 <<< 8 ||| lo.zeroExtend 16

/-- The point decoder, at offset 3 for point 1 and 9 for point 2 (R171, R121). -/
def decodePoint (f : List Byte) (o : Nat) : Point :=
  { x := be16 (f.getD o 0) (f.getD (o + 1) 0)
    y := be16 (f.getD (o + 2) 0) (f.getD (o + 3) 0)
    s := f.getD (o + 4) 0 }

/-- The touch-count validator: touch_status under COUNT_MASK if that is at most MAX_POINTS, else 0 (R172). -/
def validCount (l : Literals) (touchStatus : Byte) : BitVec 2 :=
  if (touchStatus &&& l.countMask).toNat ≤ l.maxPoints then (touchStatus &&& l.countMask).extractLsb' 0 2 else 0

/-- n of the frame decoder: the count in FRAME[2] (R173). -/
def frameCount (l : Literals) (f : List Byte) : BitVec 2 := validCount l (f.getD 2 0)

/-- p0 of the frame decoder: offsets 3 to 7 (R173). -/
def framePoint0 (f : List Byte) : Point := decodePoint f 3

/-- p1 of the frame decoder: offsets 9 to 13 (R173). -/
def framePoint1 (f : List Byte) : Point := decodePoint f 9

/-- The bootloader-busy test: BL_BUSY_BIT of the status byte at offset 1 (R174). -/
def blBusy (l : Literals) (b : List Byte) : Bool := (b.getD 1 0).getLsbD l.blBusyBit

/-- The flip function: HS_BIT inverted (R200). -/
def flipHsBit (l : Literals) (b : Byte) : Byte := b ^^^ (1 <<< l.hsBit)

/-- The 2-bit register value of min(COUNT, max_count) (R272). -/
def minCount (count : BitVec 2) (maxCount : Nat) : BitVec 2 := BitVec.ofNat 2 (min count.toNat maxCount)

end Sys2Proof.Machine
end

