-- ==== Sys2Proof/Machine/Flags.lean ====
section
/-! DEFINITION. The derived status (BUSY, MODE), the codes of ST, MODE and RESULT, and the words the host reads for
STATUS, RESULT, DIAG, COUNT, OUT_COUNT and CNT (R36–R49, R320). -/

namespace Sys2Proof.Machine

/-- ST's value in STATUS[3:0] (R37). -/
def St.code : St → BitVec 4
  | .uninit => 0
  | .claim => 1
  | .resetting => 2
  | .softReset => 3
  | .keyUnlock => 4
  | .awaitBootExit => 5
  | .enterOperational => 6
  | .operational => 7
  | .poll => 8
  | .power => 9
  | .closing => 10
  | .failed => 11

/-- MODE's value in STATUS[6:4] (R39). -/
def Mode.code : Mode → BitVec 3
  | .resetting => 0
  | .bootloaderExit => 1
  | .operationalHandshake => 2
  | .operational => 3
  | .sleeping => 4

/-- RESULT's value (R320). -/
def ResultCode.code : ResultCode → Word
  | .ok => 0
  | .errBus => 1
  | .errNoMem => 2
  | .errInit => 3
  | .errNoSession => 4
  | .errIllegalCmd => 5
  | .errSessionActive => 6

/-- BUSY is 1 outside UNINIT, OPERATIONAL and FAILED (R38). -/
def St.busy : St → Bool
  | .uninit => false
  | .operational => false
  | .failed => false
  | _ => true

/-- BUSY of a state (R38). -/
def State.busy (s : State) : Bool := s.st.busy

/-- MODE, a function of ST and SLEEPING (R39). -/
def modeOf (st : St) (sleeping : Bool) : Mode :=
  match st with
  | .awaitBootExit => .bootloaderExit
  | .enterOperational => .operationalHandshake
  | .operational | .poll | .power | .closing => if sleeping then .sleeping else .operational
  | .uninit | .claim | .resetting | .softReset | .keyUnlock | .failed => .resetting

/-- MODE of a state (R39). -/
def State.mode (s : State) : Mode := modeOf s.st s.sleeping

/-- STATUS: ST [3:0], MODE [6:4], BUSY [7], SLEEPING [8], RST_CLAIMED [9], INT_CLAIMED [10], [15:11] zero (R36). -/
def State.statusWord (s : State) : Word :=
  (0 : BitVec 5) ++ BitVec.ofBool s.intClaimed ++ BitVec.ofBool s.rstClaimed ++ BitVec.ofBool s.sleeping
    ++ BitVec.ofBool s.busy ++ s.mode.code ++ s.st.code

/-- DIAG: the nine flags in bits [8:0], [15:9] zero (R43). -/
def Diag.word (d : Diag) : Word :=
  (0 : BitVec 7) ++ BitVec.ofBool d.blBitClear ++ BitVec.ofBool d.pwrWrFail ++ BitVec.ofBool d.hsGaveUp
    ++ BitVec.ofBool d.frameRdFail ++ BitVec.ofBool d.eoRdFail ++ BitVec.ofBool d.blTimeout
    ++ BitVec.ofBool d.blRdFail ++ BitVec.ofBool d.keyWrFail ++ BitVec.ofBool d.srWrFail

/-- COUNT: bits [1:0] (R46). -/
def Published.countWord (p : Published) : Word := (0 : BitVec 14) ++ p.count

/-- A strength register: bits [7:0] (R47). -/
def Point.strengthWord (p : Point) : Word := (0 : Byte) ++ p.s

/-- OUT_COUNT: OCOUNT [1:0], ANY [8], other bits zero (R49). -/
def Published.outCountWord (p : Published) : Word :=
  (0 : BitVec 7) ++ BitVec.ofBool p.any ++ (0 : BitVec 6) ++ p.ocount

/-- CNT: HS_ATTEMPTS [4:0], BL_POLLS [11:8], other bits zero (R45). -/
def Published.cntWord (p : Published) : Word :=
  (0 : BitVec 4) ++ p.blPolls ++ (0 : BitVec 3) ++ p.hsAttempts

/-- The DIAG bits a poll owns, 5 and 6, cleared (R44, R270). -/
def Diag.clearPoll (d : Diag) : Diag := { d with frameRdFail := false, hsGaveUp := false }

/-- The DIAG bit ENTER_SLEEP and EXIT_SLEEP own, 7, cleared (R44, R273). -/
def Diag.clearPower (d : Diag) : Diag := { d with pwrWrFail := false }

end Sys2Proof.Machine
end

