-- ==== Sys2Proof/Machine/Ops.lean ====
section
/-! DEFINITION. The named operations every meaning is written over: emitting events, issuing a request and taking its
answer (R55), publishing registers (R99), ending and rejecting a command (R321, R322), the session reset (R231, R275),
accepting a command (R115), filling a buffer (R160) and one bus transaction (R80–R84). -/

namespace Sys2Proof.Machine

/-- The three outcomes, over this machine's types. -/
abbrev Result := Host.Outcome State Fault Refusal

/-- Appends an event to what the TCB has sent out (R93). -/
def State.emit (e : Event) (s : State) : State := { s with trace := e :: s.trace }

/-- The event a request is. -/
def Req.event : Req → Event
  | .bus r => .bus r
  | .delay ms => .delay ms
  | .claim pin dir => .gpioClaim pin dir

/-- Sends a request and suspends the procedure at its label until the answer (R55). -/
def State.issue (q : Req) (s : State) : State := { s with req := some q, trace := q.event :: s.trace }

/-- The outstanding request is answered by the next input, which is taken (R55). -/
def State.answered (s : State) : State := { s with req := none, inputs := s.inputs.tail }

/-- Moves the sequencer to a label, ST unchanged (R13). -/
def State.goto (l : Lbl) (s : State) : State := { s with lbl := l }

/-- Moves the sequencer to a label of another top state (R13). -/
def State.enter (st : St) (l : Lbl) (s : State) : State := { s with st := st, lbl := l }

/-- Writes the registers of R99's group; what a host may read of them from now on includes the new values (R99). -/
def State.publish (p : Published) (s : State) : State := { s with regs := p, seen := s.seen ++ [p] }

/-- `raise Result(code)`: the running command ends, BUSY falls to 0 and RESULT is written, all at this moment (R13,
R322). -/
def State.finish (st : St) (code : ResultCode) (s : State) : State :=
  { s with st := st, lbl := .idle, result := code, seen := [] }

/-- A rejected command changes RESULT only (R114, R321). -/
def State.reject (code : ResultCode) (s : State) : State := { s with result := code }

/-- The session registers, buffers and flags go to zero, at the start of INIT and at the end of CLOSE (R231, R275). -/
def State.sessionReset (s : State) : State :=
  { s.publish Published.zero with
    diag := Diag.zero
    sleeping := false
    frame := List.replicate s.params.lit.frameLayoutLen 0
    blbuf := List.replicate s.params.lit.blFrameLen 0
    hsb := 0 }

/-- An accepted command's opcode and argument are latched (R54, R115), and the values of R99's registers before it are
kept for reads that come while it runs (R99). -/
def State.latchCmd (op arg : BitVec 4) (s : State) : State :=
  { s with curOp := op, curArg := arg, seen := [s.regs] }

/-- The decoder's checks for a session command (R115): dropped while BUSY, ERR_NO_SESSION outside OPERATIONAL, else the
procedure starts. -/
def runSession (op arg : BitVec 4) (start : State → State) (s : State) : Result :=
  if s.busy then .next s
  else if s.st = .operational then .next (start (s.latchCmd op arg))
  else .next (s.reject .errNoSession)

/-- The delivered bytes go to the front of the buffer; the bytes after them keep their value (R83, R160). -/
def latch (b d : List Byte) : List Byte := b.mapIdx fun i x => d.getD i x

/-- The request of a read of `n` bytes at REG_BASE (R80, R81). -/
def memRead (l : Literals) (n : Nat) : BusReq :=
  { read := true, dev := l.devAddr, reg := l.busReg, len := BitVec.ofNat 8 n, data := [] }

/-- The request of a write of the bytes `d` at REG_BASE (R80). -/
def memWrite (l : Literals) (d : List Byte) : BusReq :=
  { read := false, dev := l.devAddr, reg := l.busReg, len := BitVec.ofNat 8 d.length, data := d }

/-- A request's header word (R118). -/
def BusReq.header (l : Literals) (r : BusReq) : Nat := packHeader l r.read r.dev r.reg r.len

/-- The bus port's contract on a read response: K ≤ LEN, and OK = 1 only with K = LEN (R82). -/
def legalRead (n : Nat) (ok : Bool) (bytes : List Byte) : Bool :=
  decide (bytes.length ≤ n) && (!ok || bytes.length == n)

/-- One write transaction, where `here` says that the sequencer is at its place. With no request outstanding it is
issued; once it is, the procedure is suspended until the answer, and `k` says what follows the answer (R55, R84). -/
def busWrite (here : Bool) (d : List Byte) (k : Bool → State → State) (s : State) : Result :=
  if here then
    match s.req with
    | none => .next (s.issue (.bus (memWrite s.params.lit d)))
    | some q =>
      if q = .bus (memWrite s.params.lit d) then
        match s.inputs with
        | .writeAnswer ok :: _ => .next (k ok s.answered)
        | _ => .next s
      else .refused .offSequence
  else .refused .offSequence

/-- One read transaction: ReadInto (R160). When it is issued the buffer is zeroed (`clear`); the answer's bytes are
latched by `fill` whatever ok is (R83); then `k` says what follows. A response outside the contract is declined (R119,
I6). -/
def busRead (here : Bool) (n : Nat) (clear : State → State) (fill : List Byte → State → State)
    (k : Bool → State → State) (s : State) : Result :=
  if here then
    match s.req with
    | none => .next ((clear s).issue (.bus (memRead s.params.lit n)))
    | some q =>
      if q = .bus (memRead s.params.lit n) then
        match s.inputs with
        | .readAnswer ok bytes :: _ =>
          if legalRead n ok bytes then .next (k ok (fill bytes s.answered)) else .refused .busContract
        | _ => .next s
      else .refused .offSequence
  else .refused .offSequence

/-- FRAME zeroed (R160, R237). -/
def State.clearFrame (s : State) : State := { s with frame := List.replicate s.params.lit.frameLayoutLen 0 }

/-- BLBUF zeroed (R160). -/
def State.clearBlbuf (s : State) : State := { s with blbuf := List.replicate s.params.lit.blFrameLen 0 }

/-- HSB zeroed (R160). -/
def State.clearHsb (s : State) : State := { s with hsb := 0 }

/-- Delivered bytes into FRAME (R83). -/
def State.fillFrame (d : List Byte) (s : State) : State := { s with frame := latch s.frame d }

/-- Delivered bytes into BLBUF (R83). -/
def State.fillBlbuf (d : List Byte) (s : State) : State := { s with blbuf := latch s.blbuf d }

/-- The delivered byte, if any, into HSB (R83). -/
def State.fillHsb (d : List Byte) (s : State) : State := { s with hsb := d.headD s.hsb }

end Sys2Proof.Machine
end

