-- ==== Sys2Proof/Machine/Bringup.lean ====
section
/-! DEFINITION. INIT and the bring-up state machine (42_bringup.md, R230–R243): the phases in order, the claim failure,
and the meanings of INIT, SOFT_RESET_WR, KEY_UNLOCK_WR and BL_STATUS_RD. -/

namespace Sys2Proof.Machine

/-- SoftReset starts; its write is next (R234). -/
def State.enterSoftReset (s : State) : State := s.enter .softReset .srWr

/-- Resetting starts: the reset pulse if a line is configured, else the phase "does nothing and takes no time" (R233). -/
def State.enterResetting (s : State) : State :=
  if s.rstEn then s.enter .resetting .rsAssert else s.enterSoftReset

/-- The second half of the claims: the interrupt line, if one is configured (R231). -/
def State.claimInterrupt (s : State) : State :=
  if s.intEn then s.goto .clInt else s.enterResetting

/-- INIT_start: ST becomes CLAIM, the session is reset, and the claims begin with the reset line (R231). -/
def State.initStart (s : State) : State :=
  let s := { s.sessionReset with st := .claim }
  if s.rstEn then s.goto .clRst else s.claimInterrupt

/-- INIT_fail: a line already claimed is released first; then FAILED with ERR_INIT (R232). -/
def State.initFail (s : State) : State :=
  if s.rstClaimed then s.goto .tdRst else s.finish .failed .errInit

/-- The reset line's claim answered (R231). -/
def State.rstClaimAnswered (ok : Bool) (s : State) : State :=
  if ok then { s with rstClaimed := true }.claimInterrupt else s.initFail

/-- The interrupt line's claim answered (R231). -/
def State.intClaimAnswered (ok : Bool) (s : State) : State :=
  if ok then { s with intClaimed := true }.enterResetting else s.initFail

/-- KeyUnlock starts; its write is next (R235). -/
def State.enterKeyUnlock (s : State) : State := s.enter .keyUnlock .kyWr

/-- The next bootloader poll: BI advances and is recorded in CNT.BL_POLLS, then the wait (R236). -/
def State.nextBootPoll (s : State) : State :=
  ({ s with bi := s.bi + 1 }.publish { s.regs with blPolls := BitVec.ofNat 4 (s.bi + 1) }).goto .blDly

/-- AwaitBootExit starts with BI = 0 (R236). -/
def State.enterAwaitBootExit (s : State) : State := { s with st := .awaitBootExit, bi := 0 }.nextBootPoll

/-- EnterOperational starts: FRAME is zeroed, then the wait (R237). -/
def State.enterEnterOperational (s : State) : State := s.clearFrame.enter .enterOperational .eoDly

/-- INIT (R230, R231, R240): dropped while BUSY (R116), ERR_SESSION_ACTIVE in OPERATIONAL (R115), refused by name when
EXPLICIT_BL_EXIT is true, else the command is latched and the procedure starts. -/
def execInit (s : State) : Result :=
  if s.busy then .next s
  else if s.st = .operational then .next (s.reject .errSessionActive)
  else if s.params.explicitBlExit then .refused .explicitBlExitUnmodelled
  else .next (s.latchCmd 1 0).initStart

/-- What follows SOFT_RESET_WR: a failed write sets DIAG.SR_WR_FAIL, and the 50 ms wait comes either way (R234). -/
def State.softResetWritten (ok : Bool) (s : State) : State :=
  { s with diag := { s.diag with srWrFail := s.diag.srWrFail || !ok } }.goto .srWait

/-- SOFT_RESET_WR, at label SR_WR (R234). -/
def execSoftResetWr (s : State) : Result :=
  busWrite (s.lbl = .srWr) s.params.lit.softResetCmd State.softResetWritten s

/-- What follows KEY_UNLOCK_WR: a failed write sets DIAG.KEY_WR_FAIL, and the 88 ms wait comes either way (R235). -/
def State.keyWritten (ok : Bool) (s : State) : State :=
  { s with diag := { s.diag with keyWrFail := s.diag.keyWrFail || !ok } }.goto .kyWait

/-- KEY_UNLOCK_WR, at label KY_WR (R235). -/
def execKeyUnlockWr (s : State) : Result :=
  busWrite (s.lbl = .kyWr) s.params.lit.keySeq State.keyWritten s

/-- What follows BL_STATUS_RD: the loop ends when bit 4 reads 0 or after the tenth read, else polls again; a failed
read is tested like any other (R236). -/
def State.bootStatusRead (ok : Bool) (s : State) : State :=
  let s := { s with diag := { s.diag with blRdFail := s.diag.blRdFail || !ok } }
  if blBusy s.params.lit s.blbuf then
    if s.bi = s.params.lit.blMaxPolls then
      { s with diag := { s.diag with blTimeout := true } }.enterEnterOperational
    else s.nextBootPoll
  else { s with diag := { s.diag with blBitClear := true } }.enterEnterOperational

/-- BL_STATUS_RD, at label BL_RD (R162, R236). -/
def execBlStatusRd (s : State) : Result :=
  busRead (s.lbl = .blRd) s.params.lit.blFrameLen State.clearBlbuf State.fillBlbuf State.bootStatusRead s

end Sys2Proof.Machine
end

