-- ==== Sys2Proof/Machine/Close.lean ====
section
/-! DEFINITION. CLOSE (R275). -/

namespace Sys2Proof.Machine

/-- The releases are done: the session registers go to zero; the end of the command is next (R275). -/
def State.closeReset (s : State) : State := s.sessionReset.goto .done

/-- The interrupt line's release, if it is claimed, is next (R275). -/
def State.closeInterrupt (s : State) : State := if s.intClaimed then s.goto .csInt else s.closeReset

/-- CLOSE starts: the reset line's release, if it is claimed, is first (R275). -/
def State.closeStart (s : State) : State :=
  let s := { s with st := .closing }
  if s.rstClaimed then s.goto .csRst else s.closeInterrupt

/-- CLOSE (R275). -/
def execClose (s : State) : Result := runSession 6 0 State.closeStart s

end Sys2Proof.Machine
end

