-- ==== Sys2Proof/Machine/Poll.lean ====
section
/-! DEFINITION. The poll: READ_DATA, GET_COORDS, and the transactions FRAME_RD, HS_RD and HS_WR (R161, R200–R208,
R270–R272). -/

namespace Sys2Proof.Machine

/-- PollBody starts: DIAG bits 5 and 6 cleared, the frame read next (R270). -/
def State.pollStart (s : State) : State := { s with diag := s.diag.clearPoll }.enter .poll .plRd

/-- READ_DATA (R271). -/
def execReadData (s : State) : Result := runSession 2 0 State.pollStart s

/-- GET_COORDS max_count (R272). -/
def execGetCoords (maxCount : Nat) (s : State) : Result :=
  runSession 3 (BitVec.ofNat 4 maxCount) State.pollStart s

/-- The handshake starts with attempt 1 (R203). -/
def State.startHandshake (s : State) : State := { s with ha := 1 }.goto .hsRd

/-- The handshake ends: its attempt count goes to CNT.HS_ATTEMPTS, and the decode is next (R203, R270). -/
def State.endHandshake (s : State) : State :=
  (s.publish { s.regs with hsAttempts := BitVec.ofNat 5 s.ha }).goto .plDec

/-- What follows FRAME_RD in bring-up: DIAG.EO_RD_FAIL from ok, nothing decoded, then the end of INIT (R237). -/
def State.confirmationRead (ok : Bool) (s : State) : State :=
  { s with diag := { s.diag with eoRdFail := s.diag.eoRdFail || !ok } }.goto .done

/-- What follows FRAME_RD in a poll: DIAG.FRAME_RD_FAIL from ok, then the handshake whatever ok is (R270). -/
def State.pollFrameRead (ok : Bool) (s : State) : State :=
  { s with diag := { s.diag with frameRdFail := s.diag.frameRdFail || !ok } }.startHandshake

/-- What follows FRAME_RD: at EO_RD it is INIT's confirmation read, at PL_RD a poll's frame read (R161). -/
def State.frameRead (ok : Bool) (s : State) : State :=
  if s.lbl = .eoRd then s.confirmationRead ok else s.pollFrameRead ok

/-- FRAME_RD of FRAME_READ_LEN bytes, at labels EO_RD and PL_RD (R161). -/
def execFrameRd (len : Nat) (s : State) : Result :=
  busRead ((s.lbl = .eoRd || s.lbl = .plRd) && len = s.params.frameReadLen.toNat) len
    State.clearFrame State.fillFrame State.frameRead s

/-- What follows HS_RD: the write if the read succeeded, else the retry delay (R203). -/
def State.handshakeRead (ok : Bool) (s : State) : State := if ok then s.goto .hsWr else s.goto .hsDly

/-- HS_RD, at label HS_RD: a fresh read of register 0 into HSB (R201). -/
def execHsRd (s : State) : Result :=
  busRead (s.lbl = .hsRd) 1 State.clearHsb State.fillHsb State.handshakeRead s

/-- What follows HS_WR: success ends the handshake, failure delays (R203). -/
def State.handshakeWritten (ok : Bool) (s : State) : State := if ok then s.endHandshake else s.goto .hsDly

/-- HS_WR of `value`, at label HS_WR, where the value the TCB sends is Flip(HSB) (R202). -/
def execHsWr (value : Byte) (s : State) : Result :=
  busWrite (s.lbl = .hsWr && value = flipHsBit s.params.lit s.hsb) [value] State.handshakeWritten s

/-- The retry delay is over: the twentieth failed attempt gives up, any other is followed by the next (R203). -/
def State.handshakeDelayed (s : State) : State :=
  if s.ha = s.params.lit.hsMaxAttempts then { s with diag := { s.diag with hsGaveUp := true } }.endHandshake
  else { s with ha := s.ha + 1 }.goto .hsRd

/-- PL_DEC of every poll: COUNT is the validated count, and only the points it covers are written (R270, R276). -/
def decodedRegs (l : Literals) (f : List Byte) (r : Published) : Published :=
  { r with
    count := frameCount l f
    p0 := if 1 ≤ (frameCount l f).toNat then framePoint0 f else r.p0
    p1 := if (frameCount l f).toNat = 2 then framePoint1 f else r.p1 }

/-- GET_COORDS after the poll: the slots below min(COUNT, max_count) are written from the points, COUNT is cleared under
PRESERVE, then OUT_COUNT is written (R272). -/
def copiedRegs (clear : GetxyClear) (maxCount : Nat) (r : Published) : Published :=
  let m := min r.count.toNat maxCount
  let count := if clear = .preserve then 0 else r.count
  { r with
    count := count
    out0 := if 1 ≤ m then r.p0 else r.out0
    out1 := if 2 ≤ m then r.p1 else r.out1
    ocount := minCount count maxCount
    any := decide (count ≠ 0) }

/-- The internal step PL_DEC: decode and write the points, and in a GET_COORDS the output slots (R270, R272). -/
def State.pollDecode (s : State) : State :=
  let t := s.publish (decodedRegs s.params.lit s.frame s.regs)
  if t.curOp = 3 then (t.publish (copiedRegs t.params.getxyClear t.maxCount t.regs)).goto .done
  else t.goto .done

end Sys2Proof.Machine
end

