-- ==== Sys2Proof/Machine/Power.lean ====
section
/-! DEFINITION. ENTER_SLEEP, EXIT_SLEEP and their transactions SLEEP_WR and WAKE_WR (R273, R274). -/

namespace Sys2Proof.Machine

/-- ENTER_SLEEP and EXIT_SLEEP start: DIAG bit 7 cleared, the one write next (R273, R274). -/
def State.powerStart (s : State) : State := { s with diag := s.diag.clearPower }.enter .power .pwWr

/-- ENTER_SLEEP (R273). -/
def execEnterSleep (s : State) : Result := runSession 4 0 State.powerStart s

/-- EXIT_SLEEP (R274). -/
def execExitSleep (s : State) : Result := runSession 5 0 State.powerStart s

/-- What follows the write: SLEEPING becomes `target` if the update is OPTIMISTIC or the write succeeded; a failed write
sets DIAG.PWR_WR_FAIL and ends with ERR_BUS (R273, R274). -/
def State.powerWritten (target ok : Bool) (s : State) : State :=
  { s with
    sleeping := if s.params.sleepModeUpdate = SleepModeUpdate.optimistic ∨ ok then target else s.sleeping
    diag := { s.diag with pwrWrFail := s.diag.pwrWrFail || !ok } }.finish .operational
      (if ok then .ok else .errBus)

/-- SLEEP_WR, at label PW_WR of an ENTER_SLEEP (R273). -/
def execSleepWr (s : State) : Result :=
  busWrite (s.lbl = .pwWr && s.curOp = 4) s.params.lit.sleepCmd (State.powerWritten true) s

/-- WAKE_WR, at label PW_WR of an EXIT_SLEEP (R274). -/
def execWakeWr (s : State) : Result :=
  busWrite (s.lbl = .pwWr && s.curOp = 5) s.params.lit.wakeCmd (State.powerWritten false) s

end Sys2Proof.Machine
end

