-- ==== Sys2Proof/Machine/Dispatch.lean ====
section
/-! DEFINITION. One arm per row of the opcode table. -/

namespace Sys2Proof.Machine

def exec (i : Instr) (s : State) : Host.Outcome State Fault Refusal :=
  match i with
  | .init => Sys2Proof.Machine.execInit s
  | .readData => Sys2Proof.Machine.execReadData s
  | .getCoords maxCount => Sys2Proof.Machine.execGetCoords maxCount s
  | .enterSleep => Sys2Proof.Machine.execEnterSleep s
  | .exitSleep => Sys2Proof.Machine.execExitSleep s
  | .close => Sys2Proof.Machine.execClose s
  | .softResetWr => Sys2Proof.Machine.execSoftResetWr s
  | .keyUnlockWr => Sys2Proof.Machine.execKeyUnlockWr s
  | .blStatusRd => Sys2Proof.Machine.execBlStatusRd s
  | .frameRd len => Sys2Proof.Machine.execFrameRd len s
  | .hsRd => Sys2Proof.Machine.execHsRd s
  | .hsWr value => Sys2Proof.Machine.execHsWr value s
  | .sleepWr => Sys2Proof.Machine.execSleepWr s
  | .wakeWr => Sys2Proof.Machine.execWakeWr s

end Sys2Proof.Machine
end

