-- ==== Sys2Proof/Machine/HostPort.lean ====
section
/-! DEFINITION. The host register file (R31–R35, R99): what a host read returns and what a host write does. -/

namespace Sys2Proof.Machine

/-- The register file has 2^HADDR_W registers; an index that HADDR_W bits cannot hold names none (R31, log 2). -/
def hasIndex (l : Literals) (index : Nat) : Bool := decide (index < 2 ^ l.haddrW)

/-- The fields the map of R31 puts at an index, where `p` holds the values taken for R99's registers: CMD and the
reserved indices hold 0 (R32, R33); FRAMEBUFi and BLBUFi pack the even byte high (R50, R51, R86). -/
def State.content (s : State) (p : Published) (index : Nat) : Nat :=
  if index = 0x01 then s.cfg
  else if index = 0x02 then s.statusWord.toNat
  else if index = 0x03 then s.result.code.toNat
  else if index = 0x04 then s.diag.word.toNat
  else if index = 0x05 then p.countWord.toNat
  else if index = 0x06 then p.p0.x.toNat
  else if index = 0x07 then p.p0.y.toNat
  else if index = 0x08 then p.p0.strengthWord.toNat
  else if index = 0x09 then p.p1.x.toNat
  else if index = 0x0A then p.p1.y.toNat
  else if index = 0x0B then p.p1.strengthWord.toNat
  else if index = 0x0C then p.outCountWord.toNat
  else if index = 0x0D then p.out0.x.toNat
  else if index = 0x0E then p.out0.y.toNat
  else if index = 0x0F then p.out0.strengthWord.toNat
  else if index = 0x10 then p.out1.x.toNat
  else if index = 0x11 then p.out1.y.toNat
  else if index = 0x12 then p.out1.strengthWord.toNat
  else if index = 0x13 then p.cntWord.toNat
  else if 0x14 ≤ index ∧ index ≤ 0x1A then
    (be16 (s.frame.getD (2 * (index - 0x14)) 0) (s.frame.getD (2 * (index - 0x14) + 1) 0)).toNat
  else if 0x1B ≤ index ∧ index ≤ 0x22 then
    (be16 (s.blbuf.getD (2 * (index - 0x1B)) 0) (s.blbuf.getD (2 * (index - 0x1B) + 1) 0)).toNat
  else 0

/-- What the host reads at an index: the HREG_W bits of the register there, or 0 where there is none (R31, R33). -/
def State.hostValue (s : State) (p : Published) (index : Nat) : Nat :=
  if hasIndex s.params.lit index then field (s.content p index) 0 s.params.lit.hregW else 0

/-- The values a host read takes for R99's registers: the current ones while BUSY = 0; while a command runs, those
before it or those it has written, the draw's choice (R99). -/
def State.drawn (s : State) (draw : Nat) : Published :=
  if s.busy then s.seen.getD draw s.regs else s.regs

/-- `rd index`: the value goes to the host; nothing else changes (R90). -/
def State.hostRead (index : Nat) (draw : Nat) (s : State) : State :=
  s.emit (.hostValue index (s.hostValue (s.drawn draw) index))

/-- CFG's write window: ST ∈ {UNINIT, FAILED} (R35). -/
def State.cfgWritable (s : State) : Bool := s.st = .uninit || s.st = .failed

/-- What a host write does to the machine. -/
inductive HostEffect where
  /-- The machine is in this state, and that is all. -/
  | becomes (s : State)
  /-- The word written to CMD is this instruction, to be run. -/
  | runs (i : Instr)
  deriving DecidableEq, Repr

/-- `wr index, v`, of which a register takes HREG_W bits. CMD: dropped while BUSY (R116), ERR_ILLEGAL_CMD for an illegal
word (R114), else the instruction runs (R115). CFG: written inside its window only (R35). Every other index: no effect
(R33). -/
def State.hostWrite (index : Nat) (v : Nat) (s : State) : HostEffect :=
  if index = 0x00 then
    if s.busy then .becomes s
    else
      match decodeCmd16 (field v 0 s.params.lit.hregW) with
      | .ok i => .runs i
      | .error _ => .becomes (s.reject .errIllegalCmd)
  else if index = 0x01 ∧ hasIndex s.params.lit index ∧ s.cfgWritable then
    .becomes { s with cfg := field v 0 s.params.lit.hregW }
  else .becomes s

end Sys2Proof.Machine
end

