-- ==== Sys2Proof/Machine/Ports.lean ====
section
/-! DEFINITION. The delay-timer port, the GPIO port and the interrupt output (R326–R333), and the sequencer's steps that
are no bus transaction (R52). -/

namespace Sys2Proof.Machine

/-- A request to the delay timer or the GPIO port: issued when none is outstanding, then suspended until `take` finds
its answer among the inputs (R55, R330, R331). A REQ that is not the label's own stands in no state a run reaches. -/
def awaitPort (r : Req) (take : Input → Option (State → State)) (s : State) : Result :=
  match s.req with
  | none => .next (s.issue r)
  | some q =>
    if q = r then
      match s.inputs.head?.bind take with
      | some k => .next (k s.answered)
      | none => .next s
    else .refused .offSequence

/-- `Delay(ms)` (R330). -/
def delayStep (ms : Byte) (k : State → State) (s : State) : Result :=
  awaitPort (.delay ms) (fun a => match a with | .delayDone => some k | _ => none) s

/-- `GpioClaim(pin, dir) -> ok` (R331). -/
def claimStep (pin : Nat) (dir : PinDir) (k : Bool → State → State) (s : State) : Result :=
  awaitPort (.claim pin dir) (fun a => match a with | .claimAnswer ok => some (k ok) | _ => none) s

/-- `GpioSet(pin, lvl)`, posted: it completes when issued (R333). -/
def State.gpioSet (pin : Nat) (level : Bool) (s : State) : State := s.emit (.gpioSet pin level)

/-- `GpioRelease(pin)` of the reset line, posted; the claim is given up (R41, R333). -/
def State.releaseRst (s : State) : State := { s.emit (.gpioRelease s.rstPin) with rstClaimed := false }

/-- `GpioRelease(pin)` of the interrupt line, posted; the claim is given up (R41, R333). -/
def State.releaseInt (s : State) : State := { s.emit (.gpioRelease s.intPin) with intClaimed := false }

/-- An edge report: while INT_CLAIMED = 1, an active edge on INT_PIN makes one `touch_irq`; nothing else changes, and
any other edge is ignored (R326, R328). -/
def State.pinEdge (pin : Nat) (edge : Edge) (s : State) : State :=
  if s.intClaimed && pin = s.intPin && edge = s.activeEdge then { s.emit .touchIrq with touchIrq := true } else s

/-- The end of INIT, of a poll and of CLOSE: RESULT = OK, and OPERATIONAL or, for CLOSE, UNINIT (R238, R271, R272,
R275). -/
def State.endCommand (s : State) : State := s.finish (if s.curOp = 6 then .uninit else .operational) .ok

/-- The sequencer at a label that is no bus transaction: the port interaction or internal step of that label (R52,
R203, R231–R238, R270, R275). -/
def portStep (s : State) : Result :=
  match s.lbl with
  | .clRst => claimStep s.rstPin .out State.rstClaimAnswered s
  | .clInt => claimStep s.intPin (.inEdge s.activeEdge) State.intClaimAnswered s
  | .tdRst => .next (s.releaseRst.finish .failed .errInit)
  | .rsAssert => .next ((s.gpioSet s.rstPin s.rstLvl).goto .rsHold1)
  | .rsHold1 => delayStep s.params.lit.rstHoldMs (State.goto .rsRelease) s
  | .rsRelease => .next ((s.gpioSet s.rstPin !s.rstLvl).goto .rsHold2)
  | .rsHold2 => delayStep s.params.lit.rstHoldMs State.enterSoftReset s
  | .srWait => delayStep s.params.lit.srWaitMs State.enterKeyUnlock s
  | .kyWait => delayStep s.params.lit.keyWaitMs State.enterAwaitBootExit s
  | .blDly => delayStep s.params.lit.blPollMs (State.goto .blRd) s
  | .eoDly => delayStep s.params.lit.eoWaitMs (State.goto .eoRd) s
  | .hsDly => delayStep s.params.lit.hsRetryMs State.handshakeDelayed s
  | .plDec => .next s.pollDecode
  | .csRst => .next s.releaseRst.closeInterrupt
  | .csInt => .next s.releaseInt.closeReset
  | .done => .next s.endCommand
  | .idle | .srWr | .kyWr | .blRd | .eoRd | .plRd | .hsRd | .hsWr | .pwWr => .next s

end Sys2Proof.Machine
end

