-- ==== Sys2Proof/Machine/Sequencer.lean ====
section
/-! DEFINITION. What one step does: which of the environment's moves is taken, which bus transaction the sequencer
stands at (R52, R127), and the hardware reset (R360–R362). Step.lean runs what `action` answers. -/

namespace Sys2Proof.Machine

/-- The bus transaction the sequencer issues at its label: the instruction it "fetches" (R52, R127). At PW_WR the
latched opcode tells ENTER_SLEEP's from EXIT_SLEEP's (R273, R274). -/
def fetchBus (s : State) : Option Instr :=
  match s.lbl with
  | .srWr => some .softResetWr
  | .kyWr => some .keyUnlockWr
  | .blRd => some .blStatusRd
  | .eoRd => some (.frameRd s.params.frameReadLen.toNat)
  | .plRd => some (.frameRd s.params.frameReadLen.toNat)
  | .hsRd => some .hsRd
  | .hsWr => some (.hsWr (flipHsBit s.params.lit s.hsb))
  | .pwWr => if s.curOp = 4 then some .sleepWr else some .wakeWr
  | .idle | .clRst | .clInt | .tdRst | .rsAssert | .rsHold1 | .rsRelease | .rsHold2 | .srWait | .kyWait | .blDly
  | .eoDly | .hsDly | .plDec | .csRst | .csInt | .done => none

/-- The hardware reset: every piece of the spec's state to its reset value, at once, with no GpioRelease (R360–R362).
The parameters, the environment's further moves and what was sent stay. -/
def State.hardwareReset (s : State) : State :=
  { State.reset with
    params := s.params
    frame := List.replicate s.params.lit.frameLayoutLen 0
    blbuf := List.replicate s.params.lit.blFrameLen 0
    inputs := s.inputs
    trace := s.trace }

/-- The `touch_irq` pulse lasts one step (R326). -/
def State.quiet (s : State) : State := { s with touchIrq := false }

/-- The next input is taken. -/
def State.taken (s : State) : State := { s with inputs := s.inputs.tail }

/-- Does an input answer this request? -/
def Req.answeredBy : Req → Input → Bool
  | .bus r, .readAnswer _ _ => r.read
  | .bus r, .writeAnswer _ => !r.read
  | .delay _, .delayDone => true
  | .claim _ _, .claimAnswer _ => true
  | _, _ => false

/-- What a step comes to. -/
inductive Action where
  /-- This result, without running an instruction. -/
  | ends (r : Host.Outcome State Fault Refusal)
  /-- The instruction is run in the state. -/
  | runs (i : Instr) (s : State)

/-- The TCB's own move: the bus transaction it stands at, or the step of its label. In IDLE nothing happens. -/
def State.proceed (s : State) : Action :=
  match fetchBus s with
  | some i => .runs i s
  | none => .ends (portStep s)

/-- An answer the environment offers: taken by the procedure if it fits the outstanding request; kept while the running
procedure has none outstanding yet; ignored if it fits no request (R361, log 6). -/
def State.offered (a : Input) (s : State) : Action :=
  match s.req with
  | some q => if q.answeredBy a then s.proceed else .ends (.next s.taken)
  | none => if s.lbl = .idle then .ends (.next s.taken) else s.proceed

/-- What the machine does next. The environment's next move is taken first when it is a reset, a host access, an edge
or a late answer (log 5); else the TCB goes on. With a request outstanding and no answer it waits, unchanged (R324). -/
def action (s : State) : Action :=
  match s.inputs with
  | [] => s.quiet.proceed
  | .hardwareReset :: _ => .ends (.next s.quiet.taken.hardwareReset)
  | .hostWrite index v :: _ =>
    match s.quiet.taken.hostWrite index v with
    | .becomes t => .ends (.next t)
    | .runs i => .runs i s.quiet.taken
  | .hostRead index draw :: _ => .ends (.next (s.quiet.taken.hostRead index draw))
  | .pinEdge pin edge :: _ => .ends (.next (s.quiet.taken.pinEdge pin edge))
  | .lateAnswer :: _ => .ends (.next s.quiet.taken)
  | .tick :: _ => if s.req.isSome then .ends (.next s.quiet.taken) else s.quiet.taken.proceed
  | .readAnswer ok bytes :: _ => s.quiet.offered (.readAnswer ok bytes)
  | .writeAnswer ok :: _ => s.quiet.offered (.writeAnswer ok)
  | .delayDone :: _ => s.quiet.offered .delayDone
  | .claimAnswer ok :: _ => s.quiet.offered (.claimAnswer ok)

/-- The machine at the place where the sequencer issues a bus transaction, with no request outstanding and the next
move its own; for a host command, the word written to CMD as the next move (log 7). -/
def State.placed (i : Instr) (s : State) : State :=
  match i with
  | .softResetWr => { s with st := .softReset, lbl := .srWr, curOp := 1, req := none, inputs := .tick :: s.inputs }
  | .keyUnlockWr => { s with st := .keyUnlock, lbl := .kyWr, curOp := 1, req := none, inputs := .tick :: s.inputs }
  | .blStatusRd =>
    { s with st := .awaitBootExit, lbl := .blRd, bi := 1, curOp := 1, req := none, inputs := .tick :: s.inputs }
  | .frameRd len =>
    { s with
      params := { s.params with frameReadLen := if len = 13 then .thirteen else .fourteen }
      st := .poll, lbl := .plRd, curOp := 2, req := none, inputs := .tick :: s.inputs }
  | .hsRd => { s with st := .poll, lbl := .hsRd, ha := 1, curOp := 2, req := none, inputs := .tick :: s.inputs }
  | .hsWr value =>
    { s with
      st := .poll, lbl := .hsWr, ha := 1, hsb := flipHsBit s.params.lit value, curOp := 2, req := none
      inputs := .tick :: s.inputs }
  | .sleepWr => { s with st := .power, lbl := .pwWr, curOp := 4, req := none, inputs := .tick :: s.inputs }
  | .wakeWr => { s with st := .power, lbl := .pwWr, curOp := 5, req := none, inputs := .tick :: s.inputs }
  | .init | .readData | .getCoords _ | .enterSleep | .exitSleep | .close => s

/-- A table word placed where `step` finds its next instruction: a command word as the host's next write to CMD, a bus
header by putting the sequencer at the transaction it names. -/
def State.placeWord (s : State) (nbits w : Nat) : State :=
  if nbits = 24 then
    match decodeTableWord 24 w with
    | some i => s.placed i
    | none => s
  else { s with inputs := .hostWrite 0x00 w :: s.inputs }

end Sys2Proof.Machine
end

