-- ==== Sys2Proof/Machine/Step.lean ====
section
/-! DEFINITION. One step of the machine, and placing a table word where the next step finds it. -/

namespace Sys2Proof.Machine

/-- An action's result: an instruction is run by `exec`. -/
def Action.run (a : Action) : Host.Outcome State Fault Refusal :=
  match a with
  | .ends r => r
  | .runs i t => exec i t

/-- One step: what `action` answers, run. -/
def step (s : State) : Host.Outcome State Fault Refusal := (action s).run

/-- `s` with the table word `w` as the instruction the very next step runs (log 7). -/
def State.withFetchWord (s : State) (nbits w : Nat) : State := s.placeWord nbits w

end Sys2Proof.Machine
end

