-- ==== Sys2Proof/Machine/HostProgram.lean ====
section
/-! DEFINITION. The written form of host programs (R124, R125, R128): register names, base operations, pseudo-operations
and their expansions, and the environment's move each base operation is. The host itself is no part of the TCB (R129). -/

namespace Sys2Proof.Machine

/-- The host register names (R31). -/
inductive HostReg where
  | cmd | cfg | status | result | diag | count
  | p0x | p0y | p0s | p1x | p1y | p1s
  | outCount | outX0 | outY0 | outS0 | outX1 | outY1 | outS1
  | cnt
  | framebuf (i : Fin 7)
  | blbuf (i : Fin 8)
  deriving DecidableEq, Repr

/-- A register's index (R31). -/
def HostReg.index : HostReg → Nat
  | .cmd => 0x00
  | .cfg => 0x01
  | .status => 0x02
  | .result => 0x03
  | .diag => 0x04
  | .count => 0x05
  | .p0x => 0x06
  | .p0y => 0x07
  | .p0s => 0x08
  | .p1x => 0x09
  | .p1y => 0x0A
  | .p1s => 0x0B
  | .outCount => 0x0C
  | .outX0 => 0x0D
  | .outY0 => 0x0E
  | .outS0 => 0x0F
  | .outX1 => 0x10
  | .outY1 => 0x11
  | .outS1 => 0x12
  | .cnt => 0x13
  | .framebuf i => 0x14 + i.val
  | .blbuf i => 0x1B + i.val

/-- A line of a host program after expansion. -/
inductive HostLine where
  /-- `wr IDX, V` (R124). -/
  | wr (index : Nat) (v : Nat)
  /-- `rd IDX` (R124). -/
  | rd (index : Nat)
  /-- `L: rd STATUS` repeated until BUSY of the value read is 0, the expansion of `wait` (R125). -/
  | rdStatusUntilIdle
  deriving DecidableEq, Repr

/-- The commands that have a pseudo-operation (R125). -/
inductive PseudoCmd where
  | init
  | readData
  | getCoords (n : BitVec 4)
  | enterSleep
  | exitSleep
  | close
  deriving DecidableEq, Repr

/-- The pseudo-operations (R125). A line given as `none` is not configured; else its pin and level. -/
inductive Pseudo where
  | wait
  | cfg (rst int : Option (Nat × Bool))
  | run (c : PseudoCmd)
  /-- `<cmd>.nw`: the write without the wait. -/
  | runNoWait (c : PseudoCmd)
  deriving DecidableEq, Repr

/-- A configured line's level and enable bits, from the top; zeros for a line that is `none` (R125). -/
def lineBits (line : Option (Nat × Bool)) : Nat :=
  match line with
  | none => 0
  | some (_, level) => level.toNat * 2 + 1

/-- A configured line's number, PIN_W bits: P[5:0]; 0 for a line that is `none` (R125). -/
def linePin (l : Literals) (line : Option (Nat × Bool)) : Nat :=
  match line with
  | none => 0
  | some (pin, _) => field pin 0 l.pinW

/-- The word of `cfg rst=P/L, int=Q/M`: Q[5:0], P[5:0], M, 1, L, 1, from the top (R125). -/
def cfgWord (l : Literals) (rst int : Option (Nat × Bool)) : Nat :=
  (linePin l int * 2 ^ l.pinW + linePin l rst) * 2 ^ 4 + lineBits int * 2 ^ 2 + lineBits rst

/-- The word a command's pseudo-operation writes to CMD (R125). -/
def PseudoCmd.word : PseudoCmd → Nat
  | .init => 0x0001
  | .readData => 0x0002
  | .getCoords n => 0x0003 ||| (n.toNat <<< 4)
  | .enterSleep => 0x0004
  | .exitSleep => 0x0005
  | .close => 0x0006

/-- The expansion of a pseudo-operation (R125). -/
def Pseudo.expand (l : Literals) : Pseudo → List HostLine
  | .wait => [.rdStatusUntilIdle]
  | .cfg rst int => [.wr HostReg.cfg.index (cfgWord l rst int)]
  | .run c => [.wr HostReg.cmd.index c.word, .rdStatusUntilIdle]
  | .runNoWait c => [.wr HostReg.cmd.index c.word]

/-- The environment's move a line makes once; `draw` is the draw of a read (R99). -/
def HostLine.input (draw : Nat) : HostLine → Input
  | .wr index v => .hostWrite index v
  | .rd index => .hostRead index draw
  | .rdStatusUntilIdle => .hostRead HostReg.status.index draw

/-- Whether `wait` reads STATUS again after reading this value: bit 7 is BUSY (R36, R125). -/
def waitAgain (status : Nat) : Bool := status.testBit 7

end Sys2Proof.Machine
end

