-- ==== Sys2Proof/Safety.lean ====
section
/-! DEFINITION. The terms the statements use: the invariant of the machine, a run against an environment that answers
every request, and what a run has sent out. -/

namespace Sys2Proof.Machine

/-- The request of a label, with its operands: what REQ holds if it holds anything there (R52, R55). -/
def labelReq (s : State) : Option Req :=
  match s.lbl with
  | .clRst => some (.claim s.rstPin .out)
  | .clInt => some (.claim s.intPin (.inEdge s.activeEdge))
  | .rsHold1 | .rsHold2 => some (.delay s.params.lit.rstHoldMs)
  | .srWr => some (.bus (memWrite s.params.lit s.params.lit.softResetCmd))
  | .srWait => some (.delay s.params.lit.srWaitMs)
  | .kyWr => some (.bus (memWrite s.params.lit s.params.lit.keySeq))
  | .kyWait => some (.delay s.params.lit.keyWaitMs)
  | .blDly => some (.delay s.params.lit.blPollMs)
  | .blRd => some (.bus (memRead s.params.lit s.params.lit.blFrameLen))
  | .eoDly => some (.delay s.params.lit.eoWaitMs)
  | .eoRd | .plRd => some (.bus (memRead s.params.lit s.params.frameReadLen.toNat))
  | .hsRd => some (.bus (memRead s.params.lit 1))
  | .hsWr => some (.bus (memWrite s.params.lit [flipHsBit s.params.lit s.hsb]))
  | .hsDly => some (.delay s.params.lit.hsRetryMs)
  | .pwWr => some (.bus (memWrite s.params.lit (if s.curOp = 4 then s.params.lit.sleepCmd else s.params.lit.wakeCmd)))
  | .idle | .tdRst | .rsAssert | .rsRelease | .plDec | .csRst | .csInt | .done => none

/-- ST, LBL and CUR_OP agree: each label stands in the state and the command its pseudocode gives it, and LBL = IDLE
exactly when BUSY = 0 (R37, R38, R52, R54). -/
def seqOk (st : St) (lbl : Lbl) (curOp : BitVec 4) : Bool :=
  match lbl with
  | .idle => !st.busy
  | .clRst | .clInt | .tdRst => st = .claim && curOp = 1
  | .rsAssert | .rsHold1 | .rsRelease | .rsHold2 => st = .resetting && curOp = 1
  | .srWr | .srWait => st = .softReset && curOp = 1
  | .kyWr | .kyWait => st = .keyUnlock && curOp = 1
  | .blDly | .blRd => st = .awaitBootExit && curOp = 1
  | .eoDly | .eoRd => st = .enterOperational && curOp = 1
  | .plRd | .hsRd | .hsWr | .hsDly | .plDec => st = .poll && (curOp = 2 || curOp = 3)
  | .pwWr => st = .power && (curOp = 4 || curOp = 5)
  | .csRst | .csInt => st = .closing && curOp = 6
  | .done =>
    (st = .enterOperational && curOp = 1) || (st = .poll && (curOp = 2 || curOp = 3))
      || (st = .closing && curOp = 6)

/-- Which lines are claimed where: none in UNINIT and FAILED; as CFG enables them from the end of the claims to CLOSE;
in between as the claims and releases go (R41, R231, R232, R275). -/
def claimsOk (s : State) : Bool :=
  match s.st, s.lbl with
  | .uninit, _ => !s.rstClaimed && !s.intClaimed
  | .failed, _ => !s.rstClaimed && !s.intClaimed
  | .claim, .clRst => s.rstEn && !s.rstClaimed && !s.intClaimed
  | .claim, .tdRst => s.rstClaimed && !s.intClaimed
  | .claim, _ => s.intEn && s.rstClaimed == s.rstEn && !s.intClaimed
  | .resetting, _ => s.rstEn && s.rstClaimed && s.intClaimed == s.intEn
  | .closing, .csRst => s.rstClaimed && s.intClaimed == s.intEn
  | .closing, .csInt => !s.rstClaimed && s.intClaimed
  | .closing, _ => !s.rstClaimed && !s.intClaimed
  | _, _ => s.rstClaimed == s.rstEn && s.intClaimed == s.intEn

/-- The values the fields of R99's registers can hold (R45, R46, R49). -/
def Published.inRange (p : Published) : Bool :=
  p.count.toNat ≤ 2 && p.ocount.toNat ≤ 2 && p.hsAttempts.toNat ≤ 20 && p.blPolls.toNat ≤ 10

/-- How the bootloader loop's two flags stand: neither before the loop has ended, exactly one after it, until CLOSE has
cleared them (R43, R236). -/
def bootFlagsOk (s : State) : Bool :=
  match s.st, s.lbl with
  | .enterOperational, _ | .operational, _ | .poll, _ | .power, _ => s.diag.blTimeout != s.diag.blBitClear
  | .closing, .done => !s.diag.blTimeout && !s.diag.blBitClear
  | .closing, _ => s.diag.blTimeout != s.diag.blBitClear
  | _, _ => !s.diag.blTimeout && !s.diag.blBitClear

/-- No session: before INIT's first bus transaction, after a failed INIT, and from the end of CLOSE on. -/
def State.cold (s : State) : Bool :=
  match s.st, s.lbl with
  | .uninit, _ | .failed, _ | .claim, _ | .resetting, _ => true
  | .closing, .done => true
  | _, _ => false

/-- The invariant of the machine: what holds of every state a run from reset reaches. -/
structure State.Valid (s : State) : Prop where
  /-- The parameters with one shown value have it (R10). -/
  literals : s.params.lit = Literals.shown
  /-- The buffers have their lengths (R50, R51). -/
  sizes : s.frame.length = s.params.lit.frameLayoutLen ∧ s.blbuf.length = s.params.lit.blFrameLen
  /-- CFG holds HREG_W bits (R31, R34). -/
  config : s.cfg < 2 ^ s.params.lit.hregW
  /-- The sequencer position is one the procedures have (R52). -/
  position : seqOk s.st s.lbl s.curOp = true
  /-- An outstanding request is its label's own (R55). -/
  request : ∀ q, s.req = some q → labelReq s = some q
  /-- HA stays within its ceiling, and counts from 1 inside the handshake (R53, R203). -/
  attempts : s.ha ≤ s.params.lit.hsMaxAttempts ∧ (s.lbl ∈ [.hsRd, .hsWr, .hsDly, .plDec] → 1 ≤ s.ha)
  /-- BI stays within its ceiling, and is CNT.BL_POLLS from 1 up inside the poll loop (R53, R236). -/
  bootPolls : s.bi ≤ s.params.lit.blMaxPolls ∧
    (s.st = .awaitBootExit → 1 ≤ s.bi ∧ s.regs.blPolls = BitVec.ofNat 4 s.bi)
  /-- The published registers hold values their rules allow, before and during a command (R45, R46, R49). -/
  ranges : s.regs.inRange = true ∧ ∀ p ∈ s.seen, p.inRange = true
  /-- The claims follow the session (R41). -/
  claims : claimsOk s = true
  /-- The values a torn read may return: none kept while BUSY = 0, the current ones among them while BUSY = 1 (R99). -/
  torn : if s.busy then s.regs ∈ s.seen else s.seen = []
  /-- The buffer of an outstanding read is zero (R160). -/
  buffers : s.req ≠ none →
    (s.lbl = .eoRd ∨ s.lbl = .plRd → s.frame = List.replicate s.params.lit.frameLayoutLen 0) ∧
    (s.lbl = .blRd → s.blbuf = List.replicate s.params.lit.blFrameLen 0) ∧ (s.lbl = .hsRd → s.hsb = 0)
  /-- SLEEPING is 0 outside a session (R40). -/
  asleep : s.sleeping = true → s.st ∈ [.operational, .poll, .power, .closing] ∧ s.cold = false
  /-- Where no session stands, every session register, buffer and flag is zero (R58, R231, R275). -/
  coldZero : s.cold = true →
    s.regs = Published.zero ∧ s.diag = Diag.zero ∧ s.frame = List.replicate s.params.lit.frameLayoutLen 0 ∧
    s.blbuf = List.replicate s.params.lit.blFrameLen 0 ∧ s.hsb = 0
  /-- No session exists under EXPLICIT_BL_EXIT = true (R240). -/
  explicitExit : s.params.explicitBlExit = true → s.st = .uninit
  /-- The bootloader loop's outcome flags (R43). -/
  bootFlags : bootFlagsOk s = true

/-- Is this input a legal answer to the request, within the environment's duties (R338)? -/
def Req.legalAnswer : Req → Input → Bool
  | .bus r, .readAnswer ok bytes => r.read && legalRead r.len.toNat ok bytes
  | .bus r, .writeAnswer _ => !r.read
  | .delay _, .delayDone => true
  | .claim _ _, .claimAnswer _ => true
  | _, _ => false

/-- An environment: its answer at each step to each request. Every sequence of answers is one. -/
abbrev Env := Nat → Req → Input

/-- The environment keeps its duties: each answer is a legal one (R338). -/
def Env.fair (env : Env) : Prop := ∀ (k : Nat) (q : Req), q.legalAnswer (env k q) = true

/-- What the environment offers at step `k`: the answer to the outstanding request, or nothing. -/
def Env.offer (env : Env) (k : Nat) (s : State) : Input :=
  match s.req with
  | none => .tick
  | some q => env k q

/-- `k` steps of the machine against an environment that answers every request at once and does nothing else. -/
def drive (env : Env) : Nat → State → Result
  | 0, s => .next s
  | k + 1, s =>
    match drive env k s with
    | .next t => step { t with inputs := [env.offer k t] }
    | .fault r => .fault r
    | .refused r => .refused r

/-- The events of a trace that are bus requests of this header (R118). -/
def busCount (h : Nat) (es : List Event) : Nat :=
  es.countP fun e => match e with | .bus r => decide (r.header .shown = h) | _ => false

/-- The events of a trace that are bus requests of any kind. -/
def anyBusCount (es : List Event) : Nat := es.countP fun e => match e with | .bus _ => true | _ => false

/-- The events of a trace that are delay requests of any length. -/
def delayCount (es : List Event) : Nat := es.countP fun e => match e with | .delay _ => true | _ => false

/-- The milliseconds a trace's delays ask for (R376). -/
def waitedMs (es : List Event) : Nat := (es.map fun e => match e with | .delay ms => ms.toNat | _ => 0).sum

/-- The bus requests the TCB issues: the widths, headers and payloads of R88 and R120. -/
def issuable (r : BusReq) : Bool :=
  r = memWrite .shown Literals.shown.softResetCmd || r = memWrite .shown Literals.shown.keySeq
    || r = memRead .shown 16 || r = memRead .shown 14 || r = memRead .shown 13
    || r = memRead .shown 1 || (!r.read && r.dev = 0x24 && r.reg = 0 && r.len = 1 && r.data.length == 1)
    || r = memWrite .shown Literals.shown.sleepCmd || r = memWrite .shown Literals.shown.wakeCmd

/-- The changes of ST one step can make without a hardware reset: the two transition tables (R243, R279), where a phase
with nothing to do takes no step of its own (R233, log 9). -/
def stMoves (s t : St) : Bool :=
  match s with
  | .uninit | .failed => t = .claim || t = .softReset
  | .claim => t = .resetting || t = .softReset || t = .failed
  | .resetting => t = .softReset
  | .softReset => t = .keyUnlock
  | .keyUnlock => t = .awaitBootExit
  | .awaitBootExit => t = .enterOperational
  | .enterOperational => t = .operational
  | .operational => t = .poll || t = .power || t = .closing
  | .poll => t = .operational
  | .power => t = .operational
  | .closing => t = .uninit

/-- When a command word is illegal, as arithmetic on its number: RSV ≠ 0, OP not 1 to 6, or ARG ≠ 0 without OP = 3
(R114). -/
def illegalWord (w : Nat) : Bool :=
  w / 256 != 0 || w % 16 == 0 || 6 < w % 16 || (w % 16 != 3 && w / 16 % 16 != 0)

/-- Is this input an answer to a port request? -/
def Input.isAnswer : Input → Bool
  | .readAnswer _ _ | .writeAnswer _ | .delayDone | .claimAnswer _ => true
  | .hardwareReset | .hostWrite _ _ | .hostRead _ _ | .pinEdge _ _ | .lateAnswer | .tick => false

/-- The buffer a read leaves: the delivered bytes, then zeros (R83, R160). -/
def readBuffer (n : Nat) (d : List Byte) : List Byte := (List.range n).map fun i => d.getD i 0

/-- What a named host register reads as, by its number: `p` holds the values taken for R99's registers (R31, R34 to
R51). -/
def namedValue (s : State) (p : Published) : HostReg → Nat
  | .cmd => 0
  | .cfg => s.cfg
  | .status =>
    s.st.code.toNat + 16 * s.mode.code.toNat + 128 * s.busy.toNat + 256 * s.sleeping.toNat + 512 * s.rstClaimed.toNat
      + 1024 * s.intClaimed.toNat
  | .result => s.result.code.toNat
  | .diag =>
    s.diag.srWrFail.toNat + 2 * s.diag.keyWrFail.toNat + 4 * s.diag.blRdFail.toNat + 8 * s.diag.blTimeout.toNat
      + 16 * s.diag.eoRdFail.toNat + 32 * s.diag.frameRdFail.toNat + 64 * s.diag.hsGaveUp.toNat
      + 128 * s.diag.pwrWrFail.toNat + 256 * s.diag.blBitClear.toNat
  | .count => p.count.toNat
  | .p0x => p.p0.x.toNat
  | .p0y => p.p0.y.toNat
  | .p0s => p.p0.s.toNat
  | .p1x => p.p1.x.toNat
  | .p1y => p.p1.y.toNat
  | .p1s => p.p1.s.toNat
  | .outCount => p.ocount.toNat + 256 * p.any.toNat
  | .outX0 => p.out0.x.toNat
  | .outY0 => p.out0.y.toNat
  | .outS0 => p.out0.s.toNat
  | .outX1 => p.out1.x.toNat
  | .outY1 => p.out1.y.toNat
  | .outS1 => p.out1.s.toNat
  | .cnt => p.hsAttempts.toNat + 256 * p.blPolls.toNat
  | .framebuf i => 256 * (s.frame.getD (2 * i.val) 0).toNat + (s.frame.getD (2 * i.val + 1) 0).toNat
  | .blbuf i => 256 * (s.blbuf.getD (2 * i.val) 0).toNat + (s.blbuf.getD (2 * i.val + 1) 0).toNat

/-- The values a poll's decode leaves (R170 to R173, R270, R276), as relations between the old values `r` and the new
ones `r'`. -/
structure DecodedFrom (f : List Byte) (r r' : Published) : Prop where
  /-- The low nibble of touch_status if it is at most 2, else 0. -/
  count : r'.count.toNat = if (f.getD 2 0).toNat % 16 ≤ 2 then (f.getD 2 0).toNat % 16 else 0
  /-- Point 0 from offsets 3 to 7, big-endian, if the count covers it. -/
  point0 : if 1 ≤ r'.count.toNat then
      r'.p0.x.toNat = 256 * (f.getD 3 0).toNat + (f.getD 4 0).toNat ∧
        r'.p0.y.toNat = 256 * (f.getD 5 0).toNat + (f.getD 6 0).toNat ∧ r'.p0.s = f.getD 7 0
    else r'.p0 = r.p0
  /-- Point 1 from offsets 9 to 13, if the count covers it. -/
  point1 : if r'.count.toNat = 2 then
      r'.p1.x.toNat = 256 * (f.getD 9 0).toNat + (f.getD 10 0).toNat ∧
        r'.p1.y.toNat = 256 * (f.getD 11 0).toNat + (f.getD 12 0).toNat ∧ r'.p1.s = f.getD 13 0
    else r'.p1 = r.p1
  /-- Everything else keeps its value. -/
  others : r'.ocount = r.ocount ∧ r'.any = r.any ∧ r'.out0 = r.out0 ∧ r'.out1 = r.out1 ∧
    r'.hsAttempts = r.hsAttempts ∧ r'.blPolls = r.blPolls

/-- The values GET_COORDS leaves after its poll (R272), as relations between the values `r` the poll left and the new
ones `r'`. -/
structure CopiedFrom (clear : GetxyClear) (maxCount : Nat) (r r' : Published) : Prop where
  /-- Slot 0, if min(COUNT, max_count) ≥ 1. -/
  slot0 : r'.out0 = if 1 ≤ min r.count.toNat maxCount then r.p0 else r.out0
  /-- Slot 1, if min(COUNT, max_count) ≥ 2. -/
  slot1 : r'.out1 = if 2 ≤ min r.count.toNat maxCount then r.p1 else r.out1
  /-- COUNT is cleared under PRESERVE and kept under FIX. -/
  count : r'.count.toNat = match clear with | .preserve => 0 | .fix => r.count.toNat
  /-- OCOUNT is min(COUNT, max_count), after the clear. -/
  ocount : r'.ocount.toNat = min r'.count.toNat maxCount
  /-- ANY says whether COUNT, after the clear, is not 0. -/
  any : r'.any = true ↔ r'.count.toNat ≠ 0
  /-- Everything else keeps its value. -/
  others : r'.p0 = r.p0 ∧ r'.p1 = r.p1 ∧ r'.hsAttempts = r.hsAttempts ∧ r'.blPolls = r.blPolls

/-- What a poll has sent out (R205, R278): one frame read, sent first; `a` handshake reads; the handshake writes; and
one 5 ms delay for each failed attempt, all 20 if the handshake gave up, else one fewer than the attempts. -/
structure PollEvents (frameLen a : Nat) (gaveUp : Bool) (es : List Event) : Prop where
  /-- The frame read is the first event. -/
  first : es.getLast? =
    some (.bus { read := true, dev := 0x24, reg := 0x00, len := BitVec.ofNat 8 frameLen, data := [] })
  /-- Nothing is sent but bus requests and delays. -/
  only : es.length = anyBusCount es + delayCount es
  /-- One attempt at least, twenty at most, and all twenty if the handshake gave up. -/
  attempts : 1 ≤ a ∧ a ≤ 20 ∧ (gaveUp = true → a = 20)
  /-- One HS_RD for each attempt. -/
  reads : busCount 0xA40001 es = a
  /-- At most one HS_WR for each attempt, and one at least if the handshake succeeded. -/
  writes : busCount 0x240001 es ≤ a ∧ (gaveUp = false → 1 ≤ busCount 0x240001 es)
  /-- One FRAME_RD, and no bus request of another kind. -/
  buses : busCount (if frameLen = 13 then 0xA4000D else 0xA4000E) es = 1 ∧
    anyBusCount es = 1 + a + busCount 0x240001 es
  /-- The delays, 5 ms each. -/
  delays : delayCount es = (if gaveUp then 20 else a - 1) ∧ waitedMs es = 5 * delayCount es

/-- What an INIT that passes its claims has sent out (R242), for `p` bootloader polls. -/
structure InitEvents (frameLen p : Nat) (resetLine : Bool) (es : List Event) : Prop where
  /-- One SOFT_RESET_WR, one KEY_UNLOCK_WR, `p` BL_STATUS_RD, one FRAME_RD. -/
  buses : busCount 0x240001 es = 1 ∧ busCount 0x24000B es = 1 ∧ busCount 0xA40010 es = p ∧
    busCount (if frameLen = 13 then 0xA4000D else 0xA4000E) es = 1
  /-- No other bus request, so no handshake. -/
  noOther : anyBusCount es = 3 + p
  /-- 3 + p delays, two more with a reset line. -/
  delays : delayCount es = 3 + p + if resetLine then 2 else 0
  /-- The waited total. -/
  waited : waitedMs es = 50 + 88 + 20 * p + 20 + if resetLine then 20 else 0

end Sys2Proof.Machine
end

