-- ==== Sys2Proof/Certificates/Slice0/Obligations.lean ====
section
/-! DEFINITION. The statements for the provers. -/

section Statements

open Sys2Proof Sys2Proof.Machine

/-! ## Reset and the host's register file -/

/-- R360: a hardware reset sets every piece of state to the value of R58, sends nothing, and leaves the machine where
it issues nothing: with nothing offered, an idle machine stays as it is. `params`, `inputs` and `trace` are the model's
own fields (log 1, 2); `touchIrq` is the one-step pulse. -/
def Obligations.HardwareResetSetsEveryField : Prop :=
  (∀ (s : State) (rest : List Input), s.inputs = .hardwareReset :: rest →
    step s = .next
      { params := s.params
        cfg := 0x0000
        st := .uninit
        lbl := .idle
        sleeping := false
        rstClaimed := false
        intClaimed := false
        result := .ok
        diag :=
          { srWrFail := false, keyWrFail := false, blRdFail := false, blTimeout := false, eoRdFail := false,
            frameRdFail := false, hsGaveUp := false, pwrWrFail := false, blBitClear := false }
        regs :=
          { count := 0, p0 := ⟨0, 0, 0⟩, p1 := ⟨0, 0, 0⟩, ocount := 0, any := false, out0 := ⟨0, 0, 0⟩,
            out1 := ⟨0, 0, 0⟩, hsAttempts := 0, blPolls := 0 }
        seen := []
        frame := List.replicate s.params.lit.frameLayoutLen 0x00
        blbuf := List.replicate s.params.lit.blFrameLen 0x00
        hsb := 0x00
        ha := 0
        bi := 0
        curOp := 0
        curArg := 0
        req := none
        touchIrq := false
        inputs := rest
        trace := s.trace }) ∧
  (∀ s : State, s.lbl = .idle → s.inputs = [] → step s = .next { s with touchIrq := false })

/-- R31, R32, R34, R36, R42 to R51, R86: reading a named register sends the host the value the map gives it, by its
number, and changes nothing. While BUSY = 0, R99's registers read their current values; while BUSY = 1 the draw picks
among those of `seen`, and a draw past its end takes the current values: that form is the model's choice (log 4; see
`TornReadHistory`). That CFG and the FRAMEBUF and BLBUF windows read their current value while BUSY = 1 is the model's
reading, for R99 does not list them (log 16). -/
def Obligations.HostReadMap : Prop :=
  ∀ (s : State) (r : HostReg) (draw : Nat) (rest : List Input),
    s.params.lit.haddrW = 8 → s.params.lit.hregW = 16 → s.cfg < 2 ^ 16 → s.inputs = .hostRead r.index draw :: rest →
    ∃ (p : Published) (v : Nat),
      (s.busy = false → p = s.regs) ∧ (s.busy = true → p = s.seen.getD draw s.regs) ∧
      v = namedValue s p r ∧
      step s = .next
        { s with touchIrq := false, inputs := rest, trace := .hostValue r.index v :: s.trace }

/-- R33: a read of a reserved index returns 0x0000; a write to one, or to a read-only register, has no effect; neither
raises a result code. -/
def Obligations.ReservedIndices : Prop :=
  ∀ (s : State) (index : Nat) (rest : List Input), index ≤ 0xFF →
    (∀ draw, s.inputs = .hostRead index draw :: rest → 0x23 ≤ index →
      step s = .next
        { s with touchIrq := false, inputs := rest, trace := .hostValue index 0x0000 :: s.trace }) ∧
    (∀ v, s.inputs = .hostWrite index v :: rest → 0x02 ≤ index →
      step s = .next { s with touchIrq := false, inputs := rest })

/-- R37, R38, R39: BUSY and MODE are functions of ST and SLEEPING, as the two rules tabulate them. -/
def Obligations.ModeAndBusy : Prop :=
  ∀ s : State,
    (s.busy = true ↔ ¬ (s.st = .uninit ∨ s.st = .operational ∨ s.st = .failed)) ∧
    s.mode.code =
      if s.st ∈ [St.uninit, .claim, .resetting, .softReset, .keyUnlock, .failed] then 0
      else if s.st = .awaitBootExit then 1
      else if s.st = .enterOperational then 2
      else if s.sleeping then 4 else 3

/-- R99: while a command runs, a read of an R99 register gives what one of the kept values gives, each kept value can
be drawn, and STATUS, RESULT and DIAG give their current value whatever is drawn. The kept values, `seen`, and their
draw are the model's choice of how R99's values are held (log 4); where `index` is CFG or a window, that it reads its
current value is the model's reading (log 16). -/
def Obligations.TornReads : Prop :=
  ∀ (s : State) (index : Nat) (rest : List Input), s.Valid → s.busy = true → index ≤ 0xFF →
    (∀ draw, s.inputs = .hostRead index draw :: rest → ∃ p ∈ s.seen,
      step s = .next
        { s with touchIrq := false, inputs := rest, trace := .hostValue index (s.hostValue p index) :: s.trace }) ∧
    (∀ p ∈ s.seen, ∃ draw,
      step { s with inputs := .hostRead index draw :: rest } = .next
        { s with touchIrq := false, inputs := rest, trace := .hostValue index (s.hostValue p index) :: s.trace }) ∧
    (index = 0x02 ∨ index = 0x03 ∨ index = 0x04 → ∀ p, s.hostValue p index = s.hostValue s.regs index)

/-- The values that `seen`, the model's own field (log 4), holds for R99: the registers' values before the running
command, then those it writes, each once it is written, and nothing else; none while no command runs. In the one step
that writes the registers twice, PL_DEC of a GET_COORDS, the value between the two writes is the decode's. -/
def Obligations.TornReadHistory : Prop :=
  ∀ s t : State, s.Valid → step s = .next t →
    (s.busy = false → t.busy = true → t.seen.head? = some s.regs) ∧
    (s.busy = true → t.busy = true → s.seen <+: t.seen ∧ (t.regs ≠ s.regs → t.regs ∈ t.seen.drop s.seen.length)) ∧
    (t.busy = true → ∀ p ∈ t.seen, p ∈ s.seen ∨ p = s.regs ∨ p = t.regs ∨
      (s.lbl = .plDec ∧ s.curOp = 3 ∧ p = decodedRegs s.params.lit s.frame s.regs)) ∧
    (t.busy = false → t.seen = [])

/-- R35, R373: CFG takes the value written while ST is UNINIT or FAILED and keeps its value at every other write; only
such a write and a hardware reset change it, so it keeps its value across CLOSE. -/
def Obligations.CfgWindow : Prop :=
  (∀ (s : State) (v : Nat) (rest : List Input),
    s.params.lit.haddrW = 8 → s.params.lit.hregW = 16 → v < 2 ^ 16 → s.inputs = .hostWrite 0x01 v :: rest →
    step s = .next
      { s with cfg := if s.st = .uninit ∨ s.st = .failed then v else s.cfg, touchIrq := false, inputs := rest }) ∧
  (∀ s t : State, step s = .next t → t.cfg ≠ s.cfg →
    (∃ v rest, s.inputs = .hostWrite 0x01 v :: rest ∧ (s.st = .uninit ∨ s.st = .failed) ∧
      (s.params.lit.hregW = 16 → v < 2 ^ 16 → t.cfg = v)) ∨
      (∃ rest, s.inputs = .hardwareReset :: rest ∧ t.cfg = 0x0000))

/-- R11: no step, so no host write, changes a parameter. -/
def Obligations.ParametersFixed : Prop :=
  ∀ s t : State, step s = .next t → t.params = s.params

/-! ## The command decoder -/

/-- R116: a write to CMD while BUSY = 1 is dropped. -/
def Obligations.BusyCommandDropped : Prop :=
  ∀ (s : State) (w : Nat) (rest : List Input), s.inputs = .hostWrite 0x00 w :: rest →
    ¬ (s.st = .uninit ∨ s.st = .operational ∨ s.st = .failed) →
    step s = .next { s with touchIrq := false, inputs := rest }

/-- R114: the words the decoder rejects are exactly those with RSV ≠ 0, OP not 1 to 6, or ARG ≠ 0 off GET_COORDS; such a
word, written while BUSY = 0, changes RESULT only. -/
def Obligations.IllegalWordRejected : Prop :=
  (∀ w : Nat, (∃ e, decodeCmd16 w = .error e) ↔ illegalWord w = true) ∧
  (∀ (s : State) (w : Nat) (rest : List Input), s.params.lit.hregW = 16 → w < 2 ^ 16 →
    s.inputs = .hostWrite 0x00 w :: rest → illegalWord w = true →
    (s.st = .uninit ∨ s.st = .operational ∨ s.st = .failed) →
    step s = .next { s with result := .errIllegalCmd, touchIrq := false, inputs := rest })

/-- R115, R321: the decoder's other checks. INIT in OPERATIONAL answers ERR_SESSION_ACTIVE; every other legal command
outside OPERATIONAL answers ERR_NO_SESSION; both change RESULT only. -/
def Obligations.SessionChecks : Prop :=
  ∀ (s : State) (w : Nat) (rest : List Input), s.params.lit.hregW = 16 → s.inputs = .hostWrite 0x00 w :: rest →
    illegalWord w = false →
    (w = 0x0001 → s.st = .operational →
      step s = .next { s with result := .errSessionActive, touchIrq := false, inputs := rest }) ∧
    (w ≠ 0x0001 → s.st = .uninit ∨ s.st = .failed →
      step s = .next { s with result := .errNoSession, touchIrq := false, inputs := rest })

/-- R42, R321, R322: RESULT changes only in a step after which BUSY is 0. A running command ends only with its
own codes: INIT with OK or ERR_INIT, ENTER_SLEEP and EXIT_SLEEP with OK or ERR_BUS, the others with OK; and the step
that ends it leaves the label IDLE and no request. -/
def Obligations.CommandEndCodes : Prop :=
  (∀ s t : State, step s = .next t → t.result ≠ s.result → t.busy = false) ∧
  (∀ s t : State, s.Valid → step s = .next t → s.busy = true → t.busy = false →
    (∀ rest, s.inputs ≠ .hardwareReset :: rest) →
    t.lbl = .idle ∧ t.req = none ∧ t.curOp = s.curOp ∧
    (s.curOp = 1 → (t.st = .operational ∧ t.result = .ok) ∨ (t.st = .failed ∧ t.result = .errInit)) ∧
    (s.curOp = 2 ∨ s.curOp = 3 → t.st = .operational ∧ t.result = .ok) ∧
    (s.curOp = 4 ∨ s.curOp = 5 → t.st = .operational ∧ (t.result = .ok ∨ t.result = .errBus)) ∧
    (s.curOp = 6 → t.st = .uninit ∧ t.result = .ok))

/-! ## Decoding and encoding -/

/-- For every well-formed instruction, the decoder reads it back from its encoding, with every operand at every value
the encoding admits. A one-byte write is named by its place in the event order (R127). -/
def Obligations.DecodeEncode : Prop :=
  ∀ i : Instr, i.wf = true → decode .shown i.inPoll (encode .shown i) = .ok i

/-- What the decoder accepts is well formed and encodes to the words it was read from, so no two instructions of one
place in the event order share words (R110 to R114, R118, R120, R127). -/
def Obligations.EncodeDecode : Prop :=
  ∀ (inPoll : Bool) (e : Encoded) (i : Instr), decode .shown inPoll e = .ok i → i.wf = true ∧ encode .shown i = e

/-- R126: the length of a bus request is found from DIR and LEN alone: the decoder takes exactly an instruction's own
bytes off a byte sequence and leaves the rest. The header's most significant byte comes first (log 13). -/
def Obligations.BusBytesRoundTrip : Prop :=
  ∀ (i : Instr) (bytes rest : List Byte), i.wf = true → (encode .shown i).busBytes .shown = some bytes →
    decodeBusBytes .shown i.inPoll (bytes ++ rest) = .ok (i, rest)

/-- R112, R120, R128: words written out from the spec's encodings decode to the instructions they stand for. -/
def Obligations.SpecWordsDecode : Prop :=
  decodeCmd16 0x0001 = .ok .init ∧ decodeCmd16 0x0002 = .ok .readData ∧ decodeCmd16 0x0023 = .ok (.getCoords 2) ∧
  decodeCmd16 0x0004 = .ok .enterSleep ∧ decodeCmd16 0x0005 = .ok .exitSleep ∧ decodeCmd16 0x0006 = .ok .close ∧
  decodeBusReq .shown false 0x240001 [0x01] = .ok .softResetWr ∧
  decodeBusReq .shown false 0x24000B [0x00, 0xFF, 0xA5, 0x00, 0x01, 0x02, 0x03, 0x04, 0x05, 0x06, 0x07] =
    .ok .keyUnlockWr ∧
  decodeBusReq .shown false 0xA40010 [] = .ok .blStatusRd ∧
  decodeBusReq .shown true 0xA4000E [] = .ok (.frameRd 14) ∧ decodeBusReq .shown true 0xA4000D [] = .ok (.frameRd 13) ∧
  decodeBusReq .shown true 0xA40001 [] = .ok .hsRd ∧ decodeBusReq .shown true 0x240001 [0xDA] = .ok (.hsWr 0xDA) ∧
  decodeBusReq .shown false 0x240002 [0x01, 0x08] = .ok .sleepWr ∧
  decodeBusReq .shown false 0x240002 [0x00, 0x08] = .ok .wakeWr

/-- R125, R128: the words the pseudo-operations write. A command's word decodes to the command; the fields of the word
`cfg rst=P/L, int=Q/M` read back as CFG's fields (R34), pin and level being 0 for a line given as `none`, and the word
has 16 bits; R128's example is 0x5455; and `wait` reads STATUS again exactly while BUSY = 1. -/
def Obligations.HostProgramWords : Prop :=
  (decodeCmd16 PseudoCmd.init.word = .ok .init ∧ decodeCmd16 PseudoCmd.readData.word = .ok .readData ∧
    (∀ n, decodeCmd16 (PseudoCmd.getCoords n).word = .ok (.getCoords n.toNat)) ∧
    decodeCmd16 PseudoCmd.enterSleep.word = .ok .enterSleep ∧ decodeCmd16 PseudoCmd.exitSleep.word = .ok .exitSleep ∧
    decodeCmd16 PseudoCmd.close.word = .ok .close) ∧
  (∀ (s : State) (rst int : Option (Nat × Bool)), s.params.lit.pinW = 6 →
    s.cfg = cfgWord s.params.lit rst int →
    s.cfg < 2 ^ 16 ∧ s.rstEn = rst.isSome ∧ s.intEn = int.isSome ∧
    (∀ p l, rst = some (p, l) → s.rstLvl = l ∧ (p < 2 ^ 6 → s.rstPin = p)) ∧
    (∀ q m, int = some (q, m) → s.intLvl = m ∧ (q < 2 ^ 6 → s.intPin = q)) ∧
    (rst = none → s.rstPin = 0 ∧ s.rstLvl = false) ∧
    (int = none → s.intPin = 0 ∧ s.intLvl = false)) ∧
  cfgWord .shown (some (5, false)) (some (21, false)) = 0x5455 ∧
  (∀ s : State, waitAgain s.statusWord.toNat = s.busy)

/-! ## A step runs the decoded instruction -/

/-- A word written to CMD while BUSY = 0 that decodes to a well-formed instruction: the step is `exec` of it, at the
state in which the write has been taken and the `touch_irq` pulse is over. -/
def Obligations.StepRunsHostCommand : Prop :=
  ∀ (s : State) (w : Nat) (rest : List Input) (i : Instr), s.params.lit.hregW = 16 →
    s.inputs = .hostWrite 0x00 w :: rest → s.busy = false → decodeCmd16 w = .ok i → i.wf = true →
    step s = exec i { s with touchIrq := false, inputs := rest }

/-- The bus transaction the sequencer stands at: the step is `exec` of it when nothing is offered, when a tick is
offered and no request is outstanding, and when an answer to the outstanding request is offered. -/
def Obligations.StepRunsBusTransaction : Prop :=
  ∀ (s : State) (i : Instr), fetchBus s = some i →
    (s.inputs = [] → step s = exec i { s with touchIrq := false }) ∧
    (∀ rest, s.inputs = .tick :: rest → s.req = none → step s = exec i { s with touchIrq := false, inputs := rest }) ∧
    (∀ q a rest, s.inputs = a :: rest → s.req = some q → q.answeredBy a = true →
      step s = exec i { s with touchIrq := false })

/-- The bus transaction the sequencer stands at is what the decoder reads from the request of its label: the header and
payload that REQ takes decode to it, at that place in the event order (R52, R118, R120, R127). -/
def Obligations.FetchIsDecoded : Prop :=
  ∀ (s : State) (i : Instr), s.Valid → fetchBus s = some i →
    i.wf = true ∧ ∃ r : BusReq, labelReq s = some (.bus r) ∧
      decodeBusReq .shown (s.st = .poll) (r.header .shown) r.data = .ok i ∧ (r.read = true → r.data = [])

/-! ## Starting a command -/

/-- R231: INIT from UNINIT or FAILED starts: the session registers, buffers and flags go to zero, and the first claim is
next, or, with no line configured, the soft reset (R233: such a phase takes no time; log 9). Nothing is sent yet, and
CFG, the claims, RESULT and the loop counters stay. -/
def Obligations.InitStarts : Prop :=
  ∀ s : State, s.st = .uninit ∨ s.st = .failed → s.params.explicitBlExit = false →
    exec .init s = .next
      { s with
        st := if s.cfg.testBit 0 ∨ s.cfg.testBit 2 then .claim else .softReset
        lbl := if s.cfg.testBit 0 then .clRst else if s.cfg.testBit 2 then .clInt else .srWr
        sleeping := false
        diag := Diag.zero
        regs := Published.zero
        seen := [s.regs, Published.zero]
        frame := List.replicate s.params.lit.frameLayoutLen 0x00
        blbuf := List.replicate s.params.lit.blFrameLen 0x00
        hsb := 0x00
        curOp := 1
        curArg := 0 }

/-- R240: under EXPLICIT_BL_EXIT = true an INIT that would start is refused by name, before any port interaction. -/
def Obligations.ExplicitExitRefused : Prop :=
  ∀ s : State, s.st = .uninit ∨ s.st = .failed → s.params.explicitBlExit = true →
    exec .init s = .refused .explicitBlExitUnmodelled

/-- R44, R54, R115, R270, R273, R274: READ_DATA, GET_COORDS, ENTER_SLEEP and EXIT_SLEEP in OPERATIONAL start: the opcode
and, for GET_COORDS, max_count are latched, the DIAG bits the command owns are cleared (5 and 6, or 7), and the frame
read, or the one write, is next. -/
def Obligations.SessionCommandsStart : Prop :=
  ∀ s : State, s.st = .operational →
    (exec .readData s = .next
      { s with
        st := .poll, lbl := .plRd, diag := { s.diag with frameRdFail := false, hsGaveUp := false }
        curOp := 2, curArg := 0, seen := [s.regs] }) ∧
    (∀ m, m ≤ 15 → ∃ arg : BitVec 4, arg.toNat = m ∧ exec (.getCoords m) s = .next
      { s with
        st := .poll, lbl := .plRd, diag := { s.diag with frameRdFail := false, hsGaveUp := false }
        curOp := 3, curArg := arg, seen := [s.regs] }) ∧
    (exec .enterSleep s = .next
      { s with
        st := .power, lbl := .pwWr, diag := { s.diag with pwrWrFail := false }
        curOp := 4, curArg := 0, seen := [s.regs] }) ∧
    (exec .exitSleep s = .next
      { s with
        st := .power, lbl := .pwWr, diag := { s.diag with pwrWrFail := false }
        curOp := 5, curArg := 0, seen := [s.regs] })

/-- R54, R115, R275: CLOSE in OPERATIONAL starts with the first line that is claimed. With none claimed the session
registers, buffers and flags go to zero in the same step and DONE is next: that a release with nothing to do takes no
step, and that the clearing happens in the step before DONE, is the model's choice (log 8, log 9). -/
def Obligations.CloseStarts : Prop :=
  ∀ s : State, s.st = .operational →
    exec .close s = .next
      (if s.rstClaimed then
        { s with st := .closing, lbl := .csRst, curOp := 6, curArg := 0, seen := [s.regs] }
      else if s.intClaimed then
        { s with st := .closing, lbl := .csInt, curOp := 6, curArg := 0, seen := [s.regs] }
      else
        { s with
          st := .closing, lbl := .done, curOp := 6, curArg := 0, seen := [s.regs, Published.zero]
          regs := Published.zero, diag := Diag.zero, sleeping := false
          frame := List.replicate s.params.lit.frameLayoutLen 0x00
          blbuf := List.replicate s.params.lit.blFrameLen 0x00, hsb := 0x00 })

/-! ## The bus transactions -/

/-- R120, R160: at its label, with no request outstanding, each of the eight transactions is issued with the header and
payload of the table; a read zeroes its whole buffer first. Nothing else changes. -/
def Obligations.TransactionsIssued : Prop :=
  ∀ s : State, s.params.lit = .shown → s.req = none →
    let send (r : BusReq) (t : State) : State := { t with req := some (.bus r), trace := .bus r :: s.trace }
    let write (d : List Byte) : BusReq :=
      { read := false, dev := 0x24, reg := 0x00, len := BitVec.ofNat 8 d.length, data := d }
    let read (n : Byte) : BusReq := { read := true, dev := 0x24, reg := 0x00, len := n, data := [] }
    (s.lbl = .srWr → exec .softResetWr s = .next (send (write [0x01]) s) ∧ (write [0x01]).header .shown = 0x240001) ∧
    (s.lbl = .kyWr →
      let key : List Byte := [0x00, 0xFF, 0xA5, 0x00, 0x01, 0x02, 0x03, 0x04, 0x05, 0x06, 0x07]
      exec .keyUnlockWr s = .next (send (write key) s) ∧ (write key).header .shown = 0x24000B) ∧
    (s.lbl = .blRd →
      exec .blStatusRd s = .next (send (read 16) { s with blbuf := List.replicate 16 0x00 }) ∧
        (read 16).header .shown = 0xA40010) ∧
    (s.lbl = .eoRd ∨ s.lbl = .plRd → s.params.frameReadLen = .fourteen →
      exec (.frameRd 14) s = .next (send (read 14) { s with frame := List.replicate 14 0x00 }) ∧
        (read 14).header .shown = 0xA4000E) ∧
    (s.lbl = .eoRd ∨ s.lbl = .plRd → s.params.frameReadLen = .thirteen →
      exec (.frameRd 13) s = .next (send (read 13) { s with frame := List.replicate 14 0x00 }) ∧
        (read 13).header .shown = 0xA4000D) ∧
    (s.lbl = .hsRd →
      exec .hsRd s = .next (send (read 1) { s with hsb := 0x00 }) ∧ (read 1).header .shown = 0xA40001) ∧
    (s.lbl = .hsWr →
      exec (.hsWr (s.hsb ^^^ 0x80)) s = .next (send (write [s.hsb ^^^ 0x80]) s) ∧
        (write [s.hsb ^^^ 0x80]).header .shown = 0x240001) ∧
    (s.lbl = .pwWr → s.curOp = 4 →
      exec .sleepWr s = .next (send (write [0x01, 0x08]) s) ∧ (write [0x01, 0x08]).header .shown = 0x240002) ∧
    (s.lbl = .pwWr → s.curOp = 5 →
      exec .wakeWr s = .next (send (write [0x00, 0x08]) s) ∧ (write [0x00, 0x08]).header .shown = 0x240002)

/-- R234, R235: the answer to SOFT_RESET_WR and to KEY_UNLOCK_WR: a failed write sets its DIAG bit and nothing else, and
the wait is next whatever ok is. -/
def Obligations.BringUpWritesAnswered : Prop :=
  ∀ (s : State) (ok : Bool) (rest : List Input), s.params.lit = .shown →
    s.inputs = .writeAnswer ok :: rest →
    (s.lbl = .srWr → s.req = some (.bus (memWrite .shown [0x01])) →
      exec .softResetWr s = .next
        { s with
          lbl := .srWait, req := none, inputs := rest
          diag := { s.diag with srWrFail := s.diag.srWrFail || !ok } }) ∧
    (s.lbl = .kyWr →
      s.req = some (.bus (memWrite .shown [0x00, 0xFF, 0xA5, 0x00, 0x01, 0x02, 0x03, 0x04, 0x05, 0x06, 0x07])) →
      exec .keyUnlockWr s = .next
        { s with
          lbl := .kyWait, req := none, inputs := rest
          diag := { s.diag with keyWrFail := s.diag.keyWrFail || !ok } })

/-- R82, R83, R162, R174, R236: the answer to BL_STATUS_RD, over the zeroed buffer. The delivered bytes then zeros are
in BLBUF; a failed read sets BL_RD_FAIL and is tested like any other; bit 4 of byte 1 at 0 ends the loop with
BL_BIT_CLEAR; at 1 the tenth poll ends it with BL_TIMEOUT, and any other is followed by the next poll. FRAME is zeroed
where EnterOperational starts (R237). -/
def Obligations.BootStatusAnswered : Prop :=
  ∀ (s : State) (ok : Bool) (d : List Byte) (rest : List Input),
    s.params.lit = .shown → s.lbl = .blRd → s.req = some (.bus (memRead .shown 16)) →
    s.inputs = .readAnswer ok d :: rest →
    d.length ≤ 16 → (ok = true → d.length = 16) → s.blbuf = List.replicate 16 0x00 →
    let u : State :=
      { s with
        req := none, inputs := rest, blbuf := readBuffer 16 d
        diag := { s.diag with blRdFail := s.diag.blRdFail || !ok } }
    ((d.getD 1 0x00).toNat / 16 % 2 = 0 →
      exec .blStatusRd s = .next
        { u with
          st := .enterOperational, lbl := .eoDly, frame := List.replicate 14 0x00
          diag := { u.diag with blBitClear := true } }) ∧
    ((d.getD 1 0x00).toNat / 16 % 2 = 1 → s.bi = 10 →
      exec .blStatusRd s = .next
        { u with
          st := .enterOperational, lbl := .eoDly, frame := List.replicate 14 0x00
          diag := { u.diag with blTimeout := true } }) ∧
    ((d.getD 1 0x00).toNat / 16 % 2 = 1 → s.bi < 10 →
      ∃ polls : BitVec 4, polls.toNat = s.bi + 1 ∧ exec .blStatusRd s = .next
        { u with
          lbl := .blDly, bi := s.bi + 1, regs := { s.regs with blPolls := polls }
          seen := s.seen ++ [{ s.regs with blPolls := polls }] })

/-- R82, R83, R161, R237, R270: the answer to FRAME_RD, over the zeroed buffer. FRAME holds the delivered bytes, then
zeros (so FRAME[13] is 0 when FRAME_READ_LEN = 13). At EO_RD a failed read sets EO_RD_FAIL and INIT's end is next,
nothing decoded; at PL_RD it sets FRAME_RD_FAIL and the handshake's first attempt is next, whatever ok is. -/
def Obligations.FrameReadAnswered : Prop :=
  ∀ (s : State) (ok : Bool) (d : List Byte) (rest : List Input) (len : Nat),
    s.params.lit = .shown → len = s.params.frameReadLen.toNat →
    s.req = some (.bus (memRead .shown len)) → s.inputs = .readAnswer ok d :: rest →
    d.length ≤ len → (ok = true → d.length = len) → s.frame = List.replicate 14 0x00 →
    (len = 13 → (readBuffer 14 d).getD 13 0xFF = 0x00) ∧
    (s.lbl = .eoRd → exec (.frameRd len) s = .next
      { s with
        lbl := .done, req := none, inputs := rest, frame := readBuffer 14 d
        diag := { s.diag with eoRdFail := s.diag.eoRdFail || !ok } }) ∧
    (s.lbl = .plRd → exec (.frameRd len) s = .next
      { s with
        lbl := .hsRd, ha := 1, req := none, inputs := rest, frame := readBuffer 14 d
        diag := { s.diag with frameRdFail := s.diag.frameRdFail || !ok } })

/-- R201, R203, R204: the answer to HS_RD, over the zeroed buffer: a read that succeeds leaves the byte the chip
delivered and the write is next; one that fails is followed by the retry delay, with no write. -/
def Obligations.HandshakeReadAnswered : Prop :=
  ∀ (s : State) (ok : Bool) (d : List Byte) (rest : List Input),
    s.params.lit = .shown → s.lbl = .hsRd → s.req = some (.bus (memRead .shown 1)) →
    s.inputs = .readAnswer ok d :: rest →
    d.length ≤ 1 → (ok = true → d.length = 1) → s.hsb = 0x00 →
    exec .hsRd s = .next
      { s with
        lbl := if ok then .hsWr else .hsDly
        req := none, inputs := rest, hsb := d.headD 0x00 }

/-- R202, R203, R204: the answer to HS_WR: a write that succeeds ends the handshake, its attempt number goes to
CNT.HS_ATTEMPTS, and the decode is next; one that fails is followed by the retry delay. -/
def Obligations.HandshakeWriteAnswered : Prop :=
  ∀ (s : State) (rest : List Input), s.params.lit = .shown → s.lbl = .hsWr →
    s.req = some (.bus (memWrite .shown [s.hsb ^^^ 0x80])) → s.ha ≤ 20 →
    (s.inputs = .writeAnswer true :: rest →
      ∃ attempts : BitVec 5, attempts.toNat = s.ha ∧ exec (.hsWr (s.hsb ^^^ 0x80)) s = .next
        { s with
          lbl := .plDec, req := none, inputs := rest, regs := { s.regs with hsAttempts := attempts }
          seen := s.seen ++ [{ s.regs with hsAttempts := attempts }] }) ∧
    (s.inputs = .writeAnswer false :: rest →
      exec (.hsWr (s.hsb ^^^ 0x80)) s = .next { s with lbl := .hsDly, req := none, inputs := rest })

/-- R273, R274: the answer to SLEEP_WR and WAKE_WR ends the command: SLEEPING becomes 1 or 0 if the write succeeded or
SLEEP_MODE_UPDATE is OPTIMISTIC, else it stays; a failed write sets PWR_WR_FAIL and RESULT is ERR_BUS. -/
def Obligations.PowerWritesAnswered : Prop :=
  ∀ (s : State) (ok : Bool) (rest : List Input), s.params.lit = .shown → s.lbl = .pwWr →
    s.inputs = .writeAnswer ok :: rest →
    let done (asleep : Bool) : State :=
      { s with
        st := .operational, lbl := .idle, req := none, inputs := rest, seen := []
        sleeping := if ok then asleep else match s.params.sleepModeUpdate with
          | .optimistic => asleep
          | .onSuccess => s.sleeping
        diag := { s.diag with pwrWrFail := s.diag.pwrWrFail || !ok }
        result := if ok then .ok else .errBus }
    (s.curOp = 4 → s.req = some (.bus (memWrite .shown [0x01, 0x08])) → exec .sleepWr s = .next (done true)) ∧
    (s.curOp = 5 → s.req = some (.bus (memWrite .shown [0x00, 0x08])) → exec .wakeWr s = .next (done false))

/-- R55, R324: while a request is outstanding and no answer to it is offered, the procedure is suspended at its label:
a step changes nothing, without limit. R361: the answer to a request that a reset dropped is ignored. That an offered
answer of another kind than the outstanding request's, and any answer offered while the machine is idle and awaits
nothing, is ignored and taken off the list is the model's choice (log 6). -/
def Obligations.SuspendedUntilAnswered : Prop :=
  (∀ (s : State) (q : Req), s.Valid → s.req = some q →
    (s.inputs = [] → step s = .next { s with touchIrq := false }) ∧
    (∀ rest, s.inputs = .tick :: rest → step s = .next { s with touchIrq := false, inputs := rest }) ∧
    (∀ a rest, s.inputs = a :: rest → a.isAnswer = true → q.answeredBy a = false →
      step s = .next { s with touchIrq := false, inputs := rest })) ∧
  (∀ (s : State) (a : Input) (rest : List Input), s.inputs = a :: rest →
    (a = .lateAnswer ∨ (a.isAnswer = true ∧ s.lbl = .idle ∧ s.req = none)) →
    step s = .next { s with touchIrq := false, inputs := rest })

/-- R119, R240, R324, I6: from a valid state a step is refused exactly where R240 or the bus port's contract says so: an
INIT starts under EXPLICIT_BL_EXIT = true, or a read response has K > LEN, or OK = 1 with K < LEN. Every other step goes
on, whatever the environment does. -/
def Obligations.NamedRefusals : Prop :=
  ∀ s : State, s.Valid →
    (∀ (r : BusReq) (ok : Bool) (d : List Byte) (rest : List Input), s.req = some (.bus r) → r.read = true →
      s.inputs = .readAnswer ok d :: rest → (r.len.toNat < d.length ∨ (ok = true ∧ d.length < r.len.toNat)) →
      step s = .refused .busContract) ∧
    (s.params.explicitBlExit = true → (∃ rest, s.inputs = .hostWrite 0x00 0x0001 :: rest) →
      step s = .refused .explicitBlExitUnmodelled) ∧
    (∀ r : Refusal, step s = .refused r →
      (r = .explicitBlExitUnmodelled ∧ s.params.explicitBlExit = true ∧
        ∃ w rest, s.inputs = .hostWrite 0x00 w :: rest ∧ (w < 2 ^ 16 → w = 0x0001)) ∨
      (r = .busContract ∧ ∃ q ok d rest, s.req = some (.bus q) ∧ q.read = true ∧ s.inputs = .readAnswer ok d :: rest ∧
        (q.len.toNat < d.length ∨ (ok = true ∧ d.length < q.len.toNat))))

/-- Log 12, the model's choice (R127 says that each transaction is issued at its label only): the meaning of a bus
transaction, applied where it is not the one the sequencer stands at, is refused by name. So HS_WR of a byte other than
Flip(HSB), or FRAME_RD of another length than FRAME_READ_LEN, is refused too. -/
def Obligations.OffSequenceRefused : Prop :=
  ∀ (s : State) (i : Instr), (∃ h payload, encode s.params.lit i = .busreq h payload) → fetchBus s ≠ some i →
    exec i s = .refused .offSequence

/-! ## The delay and GPIO ports, and the internal steps -/

/-- R330, R369, R375: each waiting label asks the delay timer for its number of milliseconds, and for nothing else. -/
def Obligations.DelaysRequested : Prop :=
  ∀ (s : State) (rest : List Input), s.params.lit = .shown → s.req = none → s.inputs = .tick :: rest →
    let ask (ms : Byte) : State :=
      { s with touchIrq := false, inputs := rest, req := some (.delay ms), trace := .delay ms :: s.trace }
    (s.lbl = .rsHold1 ∨ s.lbl = .rsHold2 → step s = .next (ask 10)) ∧
    (s.lbl = .srWait → step s = .next (ask 50)) ∧
    (s.lbl = .kyWait → step s = .next (ask 88)) ∧
    (s.lbl = .blDly ∨ s.lbl = .eoDly → step s = .next (ask 20)) ∧
    (s.lbl = .hsDly → step s = .next (ask 5))

/-- R233 to R237, R243: when a bring-up wait is over, the next step of the phase, or the next phase, is entered. The
wait after the key starts the bootloader loop at poll 1, recorded in CNT.BL_POLLS (R236). -/
def Obligations.BringUpWaitsAnswered : Prop :=
  ∀ (s : State) (rest : List Input), s.params.lit = .shown → s.inputs = .delayDone :: rest →
    let u : State := { s with touchIrq := false, inputs := rest, req := none }
    (s.lbl = .rsHold1 → s.req = some (.delay 10) → step s = .next { u with lbl := .rsRelease }) ∧
    (s.lbl = .rsHold2 → s.req = some (.delay 10) → step s = .next { u with st := .softReset, lbl := .srWr }) ∧
    (s.lbl = .srWait → s.req = some (.delay 50) → step s = .next { u with st := .keyUnlock, lbl := .kyWr }) ∧
    (s.lbl = .kyWait → s.req = some (.delay 88) →
      step s = .next
        { u with
          st := .awaitBootExit, lbl := .blDly, bi := 1, regs := { s.regs with blPolls := 1 }
          seen := s.seen ++ [{ s.regs with blPolls := 1 }] }) ∧
    (s.lbl = .blDly → s.req = some (.delay 20) → step s = .next { u with lbl := .blRd }) ∧
    (s.lbl = .eoDly → s.req = some (.delay 20) → step s = .next { u with lbl := .eoRd })

/-- R203: when the retry delay is over, the twentieth failed attempt gives up, with HS_ATTEMPTS = 20 and HS_GAVE_UP, and
the decode is next; any other is followed by the next attempt. -/
def Obligations.HandshakeDelayAnswered : Prop :=
  ∀ (s : State) (rest : List Input), s.params.lit = .shown → s.lbl = .hsDly →
    s.req = some (.delay 5) → s.inputs = .delayDone :: rest →
    (s.ha = 20 → step s = .next
      { s with
        touchIrq := false, inputs := rest, req := none, lbl := .plDec
        diag := { s.diag with hsGaveUp := true }, regs := { s.regs with hsAttempts := 20 }
        seen := s.seen ++ [{ s.regs with hsAttempts := 20 }] }) ∧
    (s.ha < 20 → step s = .next
      { s with touchIrq := false, inputs := rest, req := none, lbl := .hsRd, ha := s.ha + 1 })

/-- R233: the reset pulse drives RST_PIN, CFG[9:4], to RST_LVL, then to NOT RST_LVL; each posted GpioSet completes when
issued (R333). -/
def Obligations.ResetPulse : Prop :=
  ∀ (s : State) (rest : List Input), s.params.lit.pinW = 6 → s.req = none → s.inputs = .tick :: rest →
    let pin : Nat := field s.cfg 4 6
    let level : Bool := s.cfg.testBit 1
    (s.lbl = .rsAssert → step s = .next
      { s with touchIrq := false, inputs := rest, lbl := .rsHold1, trace := .gpioSet pin level :: s.trace }) ∧
    (s.lbl = .rsRelease → step s = .next
      { s with touchIrq := false, inputs := rest, lbl := .rsHold2, trace := .gpioSet pin (!level) :: s.trace })

/-- R231, R327, R331: the claims. At CL_RST the reset line is claimed as an output, at CL_INT the interrupt line,
CFG[15:10], as an input for its active edge. A claim that succeeds is recorded, and the interrupt line's claim, the
reset pulse or the soft reset is next, as CFG enables them. That with RST_EN = 0 the step goes from CLAIM straight to
SOFT_RESET, RESETTING being a phase that does nothing and takes no time (R233), is the model's reading (log 9). -/
def Obligations.ClaimsMade : Prop :=
  ∀ (s : State) (rest : List Input), s.params.lit.pinW = 6 →
    let rstPin : Nat := field s.cfg 4 6
    let intPin : Nat := field s.cfg 10 6
    let dir : PinDir := .inEdge (if s.cfg.testBit 3 then .rising else .falling)
    let rst : Req := .claim rstPin .out
    let int : Req := .claim intPin dir
    let resetEnabled : Bool := s.cfg.testBit 0
    let ask (q : Req) (e : Event) : State :=
      { s with touchIrq := false, inputs := rest, req := some q, trace := e :: s.trace }
    let u : State := { s with touchIrq := false, inputs := rest, req := none }
    (s.inputs = .tick :: rest → s.req = none →
      (s.lbl = .clRst → step s = .next (ask rst (.gpioClaim rstPin .out))) ∧
      (s.lbl = .clInt → step s = .next (ask int (.gpioClaim intPin dir)))) ∧
    (s.inputs = .claimAnswer true :: rest →
      (s.lbl = .clRst → s.req = some rst → s.cfg.testBit 2 = true →
        step s = .next { u with rstClaimed := true, lbl := .clInt }) ∧
      (s.lbl = .clRst → s.req = some rst → s.cfg.testBit 2 = false → resetEnabled = true →
        step s = .next { u with rstClaimed := true, st := .resetting, lbl := .rsAssert }) ∧
      (s.lbl = .clInt → s.req = some int → resetEnabled = true →
        step s = .next { u with intClaimed := true, st := .resetting, lbl := .rsAssert }) ∧
      (s.lbl = .clInt → s.req = some int → resetEnabled = false →
        step s = .next { u with intClaimed := true, st := .softReset, lbl := .srWr }))

/-- R275: CLOSE's releases, each posted: the reset line's, then the interrupt line's, each only if it is claimed; when
they are done the session registers, buffers and flags go to zero. -/
def Obligations.CloseReleases : Prop :=
  ∀ (s : State) (rest : List Input), s.params.lit.pinW = 6 → s.req = none → s.inputs = .tick :: rest →
    let cleared (t : State) : State :=
      { t with
        lbl := .done, regs := Published.zero, seen := s.seen ++ [Published.zero], diag := Diag.zero, sleeping := false
        frame := List.replicate s.params.lit.frameLayoutLen 0x00
        blbuf := List.replicate s.params.lit.blFrameLen 0x00, hsb := 0x00 }
    (s.lbl = .csRst →
      let u : State :=
        { s with
          touchIrq := false, inputs := rest, rstClaimed := false
          trace := .gpioRelease (field s.cfg 4 6) :: s.trace }
      step s = .next (if s.intClaimed then { u with lbl := .csInt } else cleared u)) ∧
    (s.lbl = .csInt →
      step s = .next (cleared
        { s with
          touchIrq := false, inputs := rest, intClaimed := false
          trace := .gpioRelease (field s.cfg 10 6) :: s.trace }))

/-- R270, R276: the decode of READ_DATA and GET_COORDS: COUNT is the validated count of FRAME, and only the points it
covers are written, from FRAME alone. In a GET_COORDS the output slots, COUNT, OCOUNT and ANY follow (R272). -/
def Obligations.PollDecodes : Prop :=
  ∀ (s : State) (rest : List Input), s.params.lit = .shown → s.req = none →
    s.inputs = .tick :: rest → s.lbl = .plDec →
    ∃ r : Published, DecodedFrom s.frame s.regs r ∧
      (s.curOp ≠ 3 → step s = .next
        { s with touchIrq := false, inputs := rest, lbl := .done, regs := r, seen := s.seen ++ [r] }) ∧
      (s.curOp = 3 → ∃ r' : Published, CopiedFrom s.params.getxyClear s.curArg.toNat r r' ∧ step s = .next
        { s with touchIrq := false, inputs := rest, lbl := .done, regs := r', seen := s.seen ++ [r, r'] })

/-- R238, R271, R272, R275: the last step of INIT and of a poll enters OPERATIONAL, that of CLOSE enters UNINIT, each
with RESULT = OK and BUSY falling to 0. -/
def Obligations.CommandsEnd : Prop :=
  ∀ (s : State) (rest : List Input), s.req = none → s.inputs = .tick :: rest → s.lbl = .done →
    step s = .next
      { s with
        touchIrq := false, inputs := rest, lbl := .idle, result := .ok, seen := []
        st := if s.curOp = 6 then .uninit else .operational }

/-! ## The interrupt output -/

/-- R326, R327: while INT_CLAIMED = 1 each active edge on INT_PIN makes exactly one `touch_irq`, and changes no
register; while INT_CLAIMED = 0 edges are ignored; and nothing but an active edge makes a `touch_irq`. That an edge on
another pin and the inactive edge, which R338 gives the port no move for, are ignored is the model's reading (log 21);
that the output is 1 for one step is the model's choice (log 18). -/
def Obligations.TouchIrqOnActiveEdge : Prop :=
  (∀ (s : State) (pin : Nat) (e : Edge) (rest : List Input), s.params.lit.pinW = 6 → s.inputs = .pinEdge pin e :: rest →
    let active : Bool :=
      s.intClaimed && decide (pin = field s.cfg 10 6) &&
        decide (e = if s.cfg.testBit 3 then .rising else .falling)
    step s = .next
      { s with
        inputs := rest, touchIrq := active
        trace := if active then .touchIrq :: s.trace else s.trace }) ∧
  (∀ s t : State, step s = .next t → t.touchIrq = true ∨ t.trace = .touchIrq :: s.trace →
    ∃ pin e rest, s.inputs = .pinEdge pin e :: rest ∧ s.intClaimed = true)

/-! ## The wire codec -/

/-- R170, R175: be16 is hi * 256 + lo; it recovers every 16-bit value from its bytes, and every pair of bytes. -/
def Obligations.BigEndian : Prop :=
  (∀ hi lo : Byte, (be16 hi lo).toNat = hi.toNat * 256 + lo.toNat) ∧
  (∀ v : Word, be16 (v.extractLsb' 8 8) (v.extractLsb' 0 8) = v) ∧
  (∀ h l : Byte, (be16 h l).extractLsb' 8 8 = h ∧ (be16 h l).extractLsb' 0 8 = l)

/-- R122, R176: two frames that agree in touch_status[3:0] and in both points decode to the same values: host_mode,
touch_mode, touch_ids and touch_status[7:4] have no effect. -/
def Obligations.UnusedFrameBytes : Prop :=
  ∀ (f g : List Byte) (r : Published),
    (f.getD 2 0).extractLsb' 0 4 = (g.getD 2 0).extractLsb' 0 4 →
    (∀ i : Nat, 3 ≤ i → i < 14 → i ≠ 8 → f.getD i 0 = g.getD i 0) →
    decodedRegs .shown f r = decodedRegs .shown g r

/-- R200, R207: the flip inverts bit 7, keeps bits [6:0], is undone by a second flip and never answers its argument. -/
def Obligations.FlipInvolution : Prop :=
  ∀ b : Byte, (flipHsBit .shown b).getLsbD 7 = !b.getLsbD 7 ∧
    (∀ i, i < 7 → (flipHsBit .shown b).getLsbD i = b.getLsbD i) ∧
    flipHsBit .shown (flipHsBit .shown b) = b ∧ flipHsBit .shown b ≠ b

/-! ## Every step of the machine -/

/-- The invariant: every step from a valid state that goes on leaves a valid state. `State.Valid` says that the
parameters with one shown value have it, that the buffers have their lengths and CFG its width, and that the sequencer
position, the latched opcode, the claims, the outstanding request, the loop counters, the values kept for torn reads
(log 4), the zeroed buffers, SLEEPING and the session registers stand in the relations the rules give them (R10, R38,
R40, R41, R43, R45, R46, R49 to R55, R99, R160, R177, R203, R231, R236, R240, R275). -/
def Obligations.StepKeepsValid : Prop :=
  ∀ s t : State, s.Valid → step s = .next t → t.Valid

/-- The reset state meets the invariant. -/
def Obligations.ResetIsValid : Prop := State.reset.Valid

/-- R243, R279: every change of ST is one of the two transition tables', phases with nothing to do being passed in the
same step (log 9); a hardware reset alone goes outside them. -/
def Obligations.StateTransitions : Prop :=
  ∀ s t : State, s.Valid → step s = .next t → s.st ≠ t.st →
    (∃ rest, s.inputs = .hardwareReset :: rest ∧ t.st = .uninit) ∨ stMoves s.st t.st = true

/-- R13, R55, R93: a step sends at most one event, and a new request only when none is outstanding, so the port
interactions form one total order; the event a new request adds is that request. -/
def Obligations.OneInteractionAtATime : Prop :=
  ∀ s t : State, s.Valid → step s = .next t →
    (t.trace = s.trace ∨ ∃ e, t.trace = e :: s.trace) ∧
    (∀ q, t.req = some q → t.req ≠ s.req → s.req = none ∧ t.trace = q.event :: s.trace)

/-- R88, R118, R330: the bus requests and delays a step sends are those of the tables, and no others. -/
def Obligations.OnlyListedRequests : Prop :=
  ∀ (s t : State) (e : Event), s.Valid → step s = .next t → t.trace = e :: s.trace →
    (∀ r, e = .bus r → issuable r = true ∧
      r.header .shown ∈ [0x240001, 0x24000B, 0xA40010, 0xA4000E, 0xA4000D, 0xA40001, 0x240002]) ∧
    (∀ ms, e = .delay ms → ms ∈ [(5 : Byte), 10, 20, 50, 88])

/-- R127, R241, R94: HS_RD is sent only by a poll at HS_RD; a one-byte write is SOFT_RESET_WR of an INIT at SR_WR, or
HS_WR of a poll at HS_WR with the byte Flip(HSB). So bring-up issues no handshake. -/
def Obligations.OneByteTransactions : Prop :=
  ∀ (s t : State) (r : BusReq), s.Valid → step s = .next t → t.trace = .bus r :: s.trace →
    (r.header .shown = 0xA40001 → s.lbl = .hsRd ∧ s.st = .poll) ∧
    (r.header .shown = 0x240001 →
      (s.lbl = .srWr ∧ s.st = .softReset ∧ s.curOp = 1 ∧ r.data = [0x01]) ∨
        (s.lbl = .hsWr ∧ s.st = .poll ∧ r.data = [s.hsb ^^^ 0x80]))

/-- R40, R337: SLEEPING is set only by ENTER_SLEEP's write, and cleared only by EXIT_SLEEP's write, by CLOSE and by a
hardware reset (INIT finds it 0). -/
def Obligations.SleepingChanges : Prop :=
  ∀ s t : State, s.Valid → step s = .next t → t.sleeping ≠ s.sleeping →
    (t.sleeping = true → s.lbl = .pwWr ∧ s.curOp = 4) ∧
    (t.sleeping = false →
      (s.lbl = .pwWr ∧ s.curOp = 5) ∨ (t.st = .closing ∧ t.curOp = 6) ∨ ∃ rest, s.inputs = .hardwareReset :: rest)

/-- R44: a DIAG bit that is 1 becomes 0 only where its owner clears it: the poll's two bits also at the start of a poll,
the power bit also at the start of a sleep or wake command, and every bit only with all of DIAG, in a CLOSE or at a
hardware reset (INIT finds no session's bits). -/
def Obligations.DiagCleared : Prop :=
  ∀ s t : State, s.Valid → step s = .next t →
    let all : Prop := t.diag = Diag.zero ∧ ((t.st = .closing ∧ t.curOp = 6) ∨ ∃ rest, s.inputs = .hardwareReset :: rest)
    ((s.diag.srWrFail = true ∧ t.diag.srWrFail = false) ∨ (s.diag.keyWrFail = true ∧ t.diag.keyWrFail = false) ∨
      (s.diag.blRdFail = true ∧ t.diag.blRdFail = false) ∨ (s.diag.blTimeout = true ∧ t.diag.blTimeout = false) ∨
      (s.diag.eoRdFail = true ∧ t.diag.eoRdFail = false) ∨
      (s.diag.blBitClear = true ∧ t.diag.blBitClear = false) → all) ∧
    ((s.diag.frameRdFail = true ∧ t.diag.frameRdFail = false) ∨ (s.diag.hsGaveUp = true ∧ t.diag.hsGaveUp = false) →
      all ∨ (s.st = .operational ∧ t.st = .poll ∧ t.diag = { s.diag with frameRdFail := false, hsGaveUp := false })) ∧
    (s.diag.pwrWrFail = true ∧ t.diag.pwrWrFail = false →
      all ∨ (s.st = .operational ∧ t.st = .power ∧ t.diag = { s.diag with pwrWrFail := false }))

/-! ## Whole commands, against every environment that keeps its duties

`drive env k u` is `k` steps from `u`, each request answered at once by `env`, whose answers are otherwise free (R14,
R338). The steps are the model's; the events are in `trace`. -/

/-- R271, R203 to R205, R270, R278, R376: READ_DATA in OPERATIONAL, in an environment that answers every request at
once and legally and does nothing else, runs to its end whatever the bus answers: FRAME holds the bytes delivered,
then zeros, the point set is decoded from it, CNT.HS_ATTEMPTS, HS_GAVE_UP and FRAME_RD_FAIL say how the transactions
went, RESULT is OK, and everything else keeps its value. The bound of 124 steps counts the model's steps, which are
its choice (log 8). -/
def Obligations.ReadDataRuns : Prop :=
  ∀ (env : Env) (s : State), env.fair → s.Valid → s.st = .operational →
    ∃ (u : State) (k a : Nat) (ok gaveUp : Bool) (d : List Byte) (h : Byte) (attempts : BitVec 5) (r : Published)
      (es : List Event),
      exec .readData s = .next u ∧ k ≤ 124 ∧
      env 1 (.bus (memRead .shown s.params.frameReadLen.toNat)) = .readAnswer ok d ∧
      attempts.toNat = a ∧ PollEvents s.params.frameReadLen.toNat a gaveUp es ∧
      DecodedFrom (readBuffer 14 d) { s.regs with hsAttempts := attempts } r ∧
      drive env k u = .next
        { s with
          result := .ok, diag := { s.diag with frameRdFail := !ok, hsGaveUp := gaveUp }
          regs := r, frame := readBuffer 14 d, hsb := h, ha := a, curOp := 2, curArg := 0
          touchIrq := false, inputs := [], trace := es ++ s.trace }

/-- R272: GET_COORDS in OPERATIONAL, in an environment that answers every request at once and legally and does nothing
else, runs to its end as READ_DATA does, then writes the output slots below min(COUNT, max_count) and OUT_COUNT, and
under PRESERVE clears COUNT. The bound of 124 steps counts the model's steps, which are its choice (log 8). -/
def Obligations.GetCoordsRuns : Prop :=
  ∀ (env : Env) (s : State) (m : Nat), env.fair → s.Valid → s.st = .operational → m ≤ 15 →
    ∃ (u : State) (k a : Nat) (ok gaveUp : Bool) (d : List Byte) (h : Byte) (attempts : BitVec 5) (r r' : Published)
      (es : List Event),
      exec (.getCoords m) s = .next u ∧ k ≤ 124 ∧
      env 1 (.bus (memRead .shown s.params.frameReadLen.toNat)) = .readAnswer ok d ∧
      attempts.toNat = a ∧ PollEvents s.params.frameReadLen.toNat a gaveUp es ∧
      DecodedFrom (readBuffer 14 d) { s.regs with hsAttempts := attempts } r ∧
      CopiedFrom s.params.getxyClear m r r' ∧
      drive env k u = .next
        { s with
          result := .ok, diag := { s.diag with frameRdFail := !ok, hsGaveUp := gaveUp }
          regs := r', frame := readBuffer 14 d, hsb := h, ha := a, curOp := 3, curArg := BitVec.ofNat 4 m
          touchIrq := false, inputs := [], trace := es ++ s.trace }

/-- R230, R238, R239, R242, R376: INIT whose claims succeed, in an environment that answers every request at once and
legally and does nothing else, runs to its end whatever the bus answers: OPERATIONAL with RESULT = OK, the configured
lines claimed, the session registers zero but for CNT.BL_POLLS, exactly one of BL_TIMEOUT and BL_BIT_CLEAR set, and
the events of R242. The bound of 63 steps counts the model's steps, which are its choice (log 8). -/
def Obligations.InitRuns : Prop :=
  ∀ (env : Env) (s : State), env.fair → s.Valid → s.st = .uninit ∨ s.st = .failed → s.params.explicitBlExit = false →
    (∀ k pin dir, env k (.claim pin dir) = .claimAnswer true) →
    ∃ (u : State) (k p : Nat) (polls : BitVec 4) (dg : Diag) (f b : List Byte)
      (es : List Event),
      exec .init s = .next u ∧ k ≤ 63 ∧ 1 ≤ p ∧ p ≤ 10 ∧ polls.toNat = p ∧
      f.length = 14 ∧ b.length = 16 ∧ InitEvents s.params.frameReadLen.toNat p (s.cfg.testBit 0) es ∧
      dg.frameRdFail = false ∧ dg.hsGaveUp = false ∧ dg.pwrWrFail = false ∧
      dg.blTimeout = !dg.blBitClear ∧ (dg.blTimeout = true → p = 10) ∧
      drive env k u = .next
        { s with
          st := .operational, result := .ok, sleeping := false, rstClaimed := s.cfg.testBit 0
          intClaimed := s.cfg.testBit 2, diag := dg, regs := { Published.zero with blPolls := polls }
          frame := f, blbuf := b, hsb := 0x00, bi := p, curOp := 1, curArg := 0
          touchIrq := false, inputs := [], trace := es ++ s.trace }

/-- R232: a claim that fails ends INIT in FAILED with ERR_INIT: a line already claimed is released first, nothing
stays claimed, and no bus request and no delay is sent. That the answers come at steps 1 and 3 and the command ends
after 2 or 5 steps counts the model's steps, which are its choice (log 8). -/
def Obligations.InitClaimFails : Prop :=
  ∀ (env : Env) (s : State), s.Valid → s.st = .uninit ∨ s.st = .failed → s.params.explicitBlExit = false →
    let rstPin : Nat := field s.cfg 4 6
    let intPin : Nat := field s.cfg 10 6
    let dir : PinDir := .inEdge (if s.cfg.testBit 3 then .rising else .falling)
    let failed (es : List Event) : State :=
      { s with
        st := .failed, result := .errInit, sleeping := false, rstClaimed := false, intClaimed := false
        diag := Diag.zero, regs := Published.zero, curOp := 1, curArg := 0
        touchIrq := false, inputs := [], trace := es ++ s.trace }
    (s.cfg.testBit 0 = true → env 1 (.claim rstPin .out) = .claimAnswer false →
      ∃ u, exec .init s = .next u ∧ drive env 2 u = .next (failed [.gpioClaim rstPin .out])) ∧
    (s.cfg.testBit 0 = false → s.cfg.testBit 2 = true → env 1 (.claim intPin dir) = .claimAnswer false →
      ∃ u, exec .init s = .next u ∧ drive env 2 u = .next (failed [.gpioClaim intPin dir])) ∧
    (s.cfg.testBit 0 = true → s.cfg.testBit 2 = true → env 1 (.claim rstPin .out) = .claimAnswer true →
      env 3 (.claim intPin dir) = .claimAnswer false →
      ∃ u, exec .init s = .next u ∧
        drive env 5 u = .next (failed [.gpioRelease rstPin, .gpioClaim intPin dir, .gpioClaim rstPin .out]))

/-- R273, R274: ENTER_SLEEP and EXIT_SLEEP in OPERATIONAL run to their end once the one write is answered: no retry,
no delay, SLEEPING as SLEEP_MODE_UPDATE and the answer say, RESULT = OK or ERR_BUS. That this is two steps, the
request and the answer, is the model's choice (log 8). -/
def Obligations.PowerCommandsRun : Prop :=
  ∀ (env : Env) (s : State) (ok : Bool), s.Valid → s.st = .operational →
    let done (op : BitVec 4) (asleep : Bool) (d : List Byte) : State :=
      { s with
        result := if ok then .ok else .errBus, diag := { s.diag with pwrWrFail := !ok }
        sleeping := if ok then asleep else match s.params.sleepModeUpdate with
          | .optimistic => asleep
          | .onSuccess => s.sleeping
        curOp := op, curArg := 0, touchIrq := false, inputs := []
        trace := .bus { read := false, dev := 0x24, reg := 0x00, len := 2, data := d } :: s.trace }
    (env 1 (.bus (memWrite .shown [0x01, 0x08])) = .writeAnswer ok →
      ∃ u, exec .enterSleep s = .next u ∧ drive env 2 u = .next (done 4 true [0x01, 0x08])) ∧
    (env 1 (.bus (memWrite .shown [0x00, 0x08])) = .writeAnswer ok →
      ∃ u, exec .exitSleep s = .next u ∧ drive env 2 u = .next (done 5 false [0x00, 0x08]))

/-- R275: CLOSE in OPERATIONAL runs to its end: the claimed lines are released, the reset line first, nothing else is
sent, every session register goes back to its reset value, CFG stays, and ST is UNINIT with RESULT = OK. The bound of
3 steps counts the model's steps, in which a line that is not claimed takes none: both are its choice (log 8, log 9). -/
def Obligations.CloseRuns : Prop :=
  ∀ (env : Env) (s : State), s.Valid → s.st = .operational →
    ∃ u k, exec .close s = .next u ∧ k ≤ 3 ∧ drive env k u = .next
      { s with
        st := .uninit, result := .ok, rstClaimed := false, intClaimed := false, sleeping := false
        diag := Diag.zero, regs := Published.zero, frame := List.replicate s.params.lit.frameLayoutLen 0x00
        blbuf := List.replicate s.params.lit.blFrameLen 0x00, hsb := 0x00, curOp := 6, curArg := 0
        touchIrq := false, inputs := []
        trace := (if s.intClaimed then [.gpioRelease (field s.cfg 10 6)] else []) ++
          (if s.rstClaimed then [.gpioRelease (field s.cfg 4 6)] else []) ++ s.trace }

end Statements
end

