-- ==== Sys2Proof/Laws/Config.lean ====
section
/-! SUPPORT. The values R10 shows, one equation per parameter, so that no proof unfolds `Literals.shown`. -/

namespace Sys2Proof

/-- The addresses, lengths, masks and counts (R10). -/
@[simp] theorem Literals.shown_sizes :
    shown.devAddr = 0x24 ∧ shown.regBase = 0x00 ∧ shown.frameLayoutLen = 14 ∧ shown.blFrameLen = 16 ∧ shown.hsBit = 7 ∧
    shown.hsMaxAttempts = 20 ∧ shown.blBusyBit = 4 ∧ shown.blMaxPolls = 10 ∧ shown.countMask = 0x0F ∧
    shown.maxPoints = 2 :=
  ⟨rfl, rfl, rfl, rfl, rfl, rfl, rfl, rfl, rfl, rfl⟩

/-- The widths (R10). -/
@[simp] theorem Literals.shown_widths :
    shown.pinW = 6 ∧ shown.hregW = 16 ∧ shown.haddrW = 8 ∧ shown.bregW = 8 :=
  ⟨rfl, rfl, rfl, rfl⟩

/-- The waits (R10, R330). -/
@[simp] theorem Literals.shown_waits :
    shown.hsRetryMs = 5 ∧ shown.blPollMs = 20 ∧ shown.rstHoldMs = 10 ∧ shown.srWaitMs = 50 ∧ shown.keyWaitMs = 88 ∧
    shown.eoWaitMs = 20 :=
  ⟨rfl, rfl, rfl, rfl, rfl, rfl⟩

/-- The payloads (R10, R120). -/
@[simp] theorem Literals.shown_payloads :
    shown.softResetCmd = [0x01] ∧
    shown.keySeq = [0x00, 0xFF, 0xA5, 0x00, 0x01, 0x02, 0x03, 0x04, 0x05, 0x06, 0x07] ∧
    shown.sleepCmd = [0x01, 0x08] ∧ shown.wakeCmd = [0x00, 0x08] :=
  ⟨rfl, rfl, rfl, rfl⟩

end Sys2Proof
end

