-- ==== Sys2Proof/Laws/State.lean ====
section
/-! SUPPORT. What each named update of the state writes and what it leaves: one equation per field, by rfl, so that no
proof unfolds a record update. -/

namespace Sys2Proof.Machine

variable (s : State)

/-- `emit` writes the trace only. -/
@[simp] theorem State.emit_fields (e : Event) :
    (s.emit e).params = s.params ∧ (s.emit e).cfg = s.cfg ∧ (s.emit e).st = s.st ∧ (s.emit e).lbl = s.lbl ∧
    (s.emit e).sleeping = s.sleeping ∧ (s.emit e).rstClaimed = s.rstClaimed ∧ (s.emit e).intClaimed = s.intClaimed ∧
    (s.emit e).result = s.result ∧ (s.emit e).diag = s.diag ∧ (s.emit e).regs = s.regs ∧ (s.emit e).seen = s.seen ∧
    (s.emit e).frame = s.frame ∧ (s.emit e).blbuf = s.blbuf ∧ (s.emit e).hsb = s.hsb ∧ (s.emit e).ha = s.ha ∧
    (s.emit e).bi = s.bi ∧ (s.emit e).curOp = s.curOp ∧ (s.emit e).curArg = s.curArg ∧ (s.emit e).req = s.req ∧
    (s.emit e).touchIrq = s.touchIrq ∧ (s.emit e).inputs = s.inputs ∧ (s.emit e).trace = e :: s.trace :=
  ⟨rfl, rfl, rfl, rfl, rfl, rfl, rfl, rfl, rfl, rfl, rfl, rfl, rfl, rfl, rfl, rfl, rfl, rfl, rfl, rfl, rfl, rfl⟩

/-- `issue` writes req, trace and leaves every other field. -/
@[simp] theorem State.issue_fields (q : Req) :
    (s.issue q).params = s.params ∧ (s.issue q).cfg = s.cfg ∧ (s.issue q).st = s.st ∧ (s.issue q).lbl = s.lbl ∧
    (s.issue q).sleeping = s.sleeping ∧ (s.issue q).rstClaimed = s.rstClaimed ∧
    (s.issue q).intClaimed = s.intClaimed ∧ (s.issue q).result = s.result ∧ (s.issue q).diag = s.diag ∧
    (s.issue q).regs = s.regs ∧ (s.issue q).seen = s.seen ∧ (s.issue q).frame = s.frame ∧
    (s.issue q).blbuf = s.blbuf ∧ (s.issue q).hsb = s.hsb ∧ (s.issue q).ha = s.ha ∧ (s.issue q).bi = s.bi ∧
    (s.issue q).curOp = s.curOp ∧ (s.issue q).curArg = s.curArg ∧ (s.issue q).req = some q ∧
    (s.issue q).touchIrq = s.touchIrq ∧ (s.issue q).inputs = s.inputs ∧ (s.issue q).trace = q.event :: s.trace :=
  ⟨rfl, rfl, rfl, rfl, rfl, rfl, rfl, rfl, rfl, rfl, rfl, rfl, rfl, rfl, rfl, rfl, rfl, rfl, rfl, rfl, rfl, rfl⟩

/-- `answered` writes req, inputs and leaves every other field. -/
@[simp] theorem State.answered_fields :
    (s.answered).params = s.params ∧ (s.answered).cfg = s.cfg ∧ (s.answered).st = s.st ∧ (s.answered).lbl = s.lbl ∧
    (s.answered).sleeping = s.sleeping ∧ (s.answered).rstClaimed = s.rstClaimed ∧
    (s.answered).intClaimed = s.intClaimed ∧ (s.answered).result = s.result ∧ (s.answered).diag = s.diag ∧
    (s.answered).regs = s.regs ∧ (s.answered).seen = s.seen ∧ (s.answered).frame = s.frame ∧
    (s.answered).blbuf = s.blbuf ∧ (s.answered).hsb = s.hsb ∧ (s.answered).ha = s.ha ∧ (s.answered).bi = s.bi ∧
    (s.answered).curOp = s.curOp ∧ (s.answered).curArg = s.curArg ∧ (s.answered).req = none ∧
    (s.answered).touchIrq = s.touchIrq ∧ (s.answered).inputs = s.inputs.tail ∧ (s.answered).trace = s.trace :=
  ⟨rfl, rfl, rfl, rfl, rfl, rfl, rfl, rfl, rfl, rfl, rfl, rfl, rfl, rfl, rfl, rfl, rfl, rfl, rfl, rfl, rfl, rfl⟩

/-- `goto` writes lbl and leaves every other field. -/
@[simp] theorem State.goto_fields (l : Lbl) :
    (s.goto l).params = s.params ∧ (s.goto l).cfg = s.cfg ∧ (s.goto l).st = s.st ∧ (s.goto l).lbl = l ∧
    (s.goto l).sleeping = s.sleeping ∧ (s.goto l).rstClaimed = s.rstClaimed ∧ (s.goto l).intClaimed = s.intClaimed ∧
    (s.goto l).result = s.result ∧ (s.goto l).diag = s.diag ∧ (s.goto l).regs = s.regs ∧ (s.goto l).seen = s.seen ∧
    (s.goto l).frame = s.frame ∧ (s.goto l).blbuf = s.blbuf ∧ (s.goto l).hsb = s.hsb ∧ (s.goto l).ha = s.ha ∧
    (s.goto l).bi = s.bi ∧ (s.goto l).curOp = s.curOp ∧ (s.goto l).curArg = s.curArg ∧ (s.goto l).req = s.req ∧
    (s.goto l).touchIrq = s.touchIrq ∧ (s.goto l).inputs = s.inputs ∧ (s.goto l).trace = s.trace :=
  ⟨rfl, rfl, rfl, rfl, rfl, rfl, rfl, rfl, rfl, rfl, rfl, rfl, rfl, rfl, rfl, rfl, rfl, rfl, rfl, rfl, rfl, rfl⟩

/-- `enter` writes st, lbl and leaves every other field. -/
@[simp] theorem State.enter_fields (st : St) (l : Lbl) :
    (s.enter st l).params = s.params ∧ (s.enter st l).cfg = s.cfg ∧ (s.enter st l).st = st ∧ (s.enter st l).lbl = l ∧
    (s.enter st l).sleeping = s.sleeping ∧ (s.enter st l).rstClaimed = s.rstClaimed ∧
    (s.enter st l).intClaimed = s.intClaimed ∧ (s.enter st l).result = s.result ∧ (s.enter st l).diag = s.diag ∧
    (s.enter st l).regs = s.regs ∧ (s.enter st l).seen = s.seen ∧ (s.enter st l).frame = s.frame ∧
    (s.enter st l).blbuf = s.blbuf ∧ (s.enter st l).hsb = s.hsb ∧ (s.enter st l).ha = s.ha ∧
    (s.enter st l).bi = s.bi ∧ (s.enter st l).curOp = s.curOp ∧ (s.enter st l).curArg = s.curArg ∧
    (s.enter st l).req = s.req ∧ (s.enter st l).touchIrq = s.touchIrq ∧ (s.enter st l).inputs = s.inputs ∧
    (s.enter st l).trace = s.trace :=
  ⟨rfl, rfl, rfl, rfl, rfl, rfl, rfl, rfl, rfl, rfl, rfl, rfl, rfl, rfl, rfl, rfl, rfl, rfl, rfl, rfl, rfl, rfl⟩

/-- `publish` writes regs, seen and leaves every other field. -/
@[simp] theorem State.publish_fields (p : Published) :
    (s.publish p).params = s.params ∧ (s.publish p).cfg = s.cfg ∧ (s.publish p).st = s.st ∧
    (s.publish p).lbl = s.lbl ∧ (s.publish p).sleeping = s.sleeping ∧ (s.publish p).rstClaimed = s.rstClaimed ∧
    (s.publish p).intClaimed = s.intClaimed ∧ (s.publish p).result = s.result ∧ (s.publish p).diag = s.diag ∧
    (s.publish p).regs = p ∧ (s.publish p).seen = s.seen ++ [p] ∧ (s.publish p).frame = s.frame ∧
    (s.publish p).blbuf = s.blbuf ∧ (s.publish p).hsb = s.hsb ∧ (s.publish p).ha = s.ha ∧ (s.publish p).bi = s.bi ∧
    (s.publish p).curOp = s.curOp ∧ (s.publish p).curArg = s.curArg ∧ (s.publish p).req = s.req ∧
    (s.publish p).touchIrq = s.touchIrq ∧ (s.publish p).inputs = s.inputs ∧ (s.publish p).trace = s.trace :=
  ⟨rfl, rfl, rfl, rfl, rfl, rfl, rfl, rfl, rfl, rfl, rfl, rfl, rfl, rfl, rfl, rfl, rfl, rfl, rfl, rfl, rfl, rfl⟩

/-- `finish` writes st, lbl, result, seen and leaves every other field. -/
@[simp] theorem State.finish_fields (st : St) (code : ResultCode) :
    (s.finish st code).params = s.params ∧ (s.finish st code).cfg = s.cfg ∧ (s.finish st code).st = st ∧
    (s.finish st code).lbl = .idle ∧ (s.finish st code).sleeping = s.sleeping ∧
    (s.finish st code).rstClaimed = s.rstClaimed ∧ (s.finish st code).intClaimed = s.intClaimed ∧
    (s.finish st code).result = code ∧ (s.finish st code).diag = s.diag ∧ (s.finish st code).regs = s.regs ∧
    (s.finish st code).seen = [] ∧ (s.finish st code).frame = s.frame ∧ (s.finish st code).blbuf = s.blbuf ∧
    (s.finish st code).hsb = s.hsb ∧ (s.finish st code).ha = s.ha ∧ (s.finish st code).bi = s.bi ∧
    (s.finish st code).curOp = s.curOp ∧ (s.finish st code).curArg = s.curArg ∧ (s.finish st code).req = s.req ∧
    (s.finish st code).touchIrq = s.touchIrq ∧ (s.finish st code).inputs = s.inputs ∧
    (s.finish st code).trace = s.trace :=
  ⟨rfl, rfl, rfl, rfl, rfl, rfl, rfl, rfl, rfl, rfl, rfl, rfl, rfl, rfl, rfl, rfl, rfl, rfl, rfl, rfl, rfl, rfl⟩

/-- `reject` writes result and leaves every other field. -/
@[simp] theorem State.reject_fields (code : ResultCode) :
    (s.reject code).params = s.params ∧ (s.reject code).cfg = s.cfg ∧ (s.reject code).st = s.st ∧
    (s.reject code).lbl = s.lbl ∧ (s.reject code).sleeping = s.sleeping ∧ (s.reject code).rstClaimed = s.rstClaimed ∧
    (s.reject code).intClaimed = s.intClaimed ∧ (s.reject code).result = code ∧ (s.reject code).diag = s.diag ∧
    (s.reject code).regs = s.regs ∧ (s.reject code).seen = s.seen ∧ (s.reject code).frame = s.frame ∧
    (s.reject code).blbuf = s.blbuf ∧ (s.reject code).hsb = s.hsb ∧ (s.reject code).ha = s.ha ∧
    (s.reject code).bi = s.bi ∧ (s.reject code).curOp = s.curOp ∧ (s.reject code).curArg = s.curArg ∧
    (s.reject code).req = s.req ∧ (s.reject code).touchIrq = s.touchIrq ∧ (s.reject code).inputs = s.inputs ∧
    (s.reject code).trace = s.trace :=
  ⟨rfl, rfl, rfl, rfl, rfl, rfl, rfl, rfl, rfl, rfl, rfl, rfl, rfl, rfl, rfl, rfl, rfl, rfl, rfl, rfl, rfl, rfl⟩

/-- `sessionReset` writes regs, seen, diag, sleeping, frame, blbuf, hsb and leaves every other field. -/
@[simp] theorem State.sessionReset_fields :
    (s.sessionReset).params = s.params ∧ (s.sessionReset).cfg = s.cfg ∧ (s.sessionReset).st = s.st ∧
    (s.sessionReset).lbl = s.lbl ∧ (s.sessionReset).sleeping = false ∧ (s.sessionReset).rstClaimed = s.rstClaimed ∧
    (s.sessionReset).intClaimed = s.intClaimed ∧ (s.sessionReset).result = s.result ∧
    (s.sessionReset).diag = Diag.zero ∧ (s.sessionReset).regs = Published.zero ∧
    (s.sessionReset).seen = s.seen ++ [Published.zero] ∧
    (s.sessionReset).frame = List.replicate s.params.lit.frameLayoutLen 0 ∧
    (s.sessionReset).blbuf = List.replicate s.params.lit.blFrameLen 0 ∧ (s.sessionReset).hsb = 0 ∧
    (s.sessionReset).ha = s.ha ∧ (s.sessionReset).bi = s.bi ∧ (s.sessionReset).curOp = s.curOp ∧
    (s.sessionReset).curArg = s.curArg ∧ (s.sessionReset).req = s.req ∧ (s.sessionReset).touchIrq = s.touchIrq ∧
    (s.sessionReset).inputs = s.inputs ∧ (s.sessionReset).trace = s.trace :=
  ⟨rfl, rfl, rfl, rfl, rfl, rfl, rfl, rfl, rfl, rfl, rfl, rfl, rfl, rfl, rfl, rfl, rfl, rfl, rfl, rfl, rfl, rfl⟩

/-- `latchCmd` writes curOp, curArg, seen and leaves every other field. -/
@[simp] theorem State.latchCmd_fields (op arg : BitVec 4) :
    (s.latchCmd op arg).params = s.params ∧ (s.latchCmd op arg).cfg = s.cfg ∧ (s.latchCmd op arg).st = s.st ∧
    (s.latchCmd op arg).lbl = s.lbl ∧ (s.latchCmd op arg).sleeping = s.sleeping ∧
    (s.latchCmd op arg).rstClaimed = s.rstClaimed ∧ (s.latchCmd op arg).intClaimed = s.intClaimed ∧
    (s.latchCmd op arg).result = s.result ∧ (s.latchCmd op arg).diag = s.diag ∧ (s.latchCmd op arg).regs = s.regs ∧
    (s.latchCmd op arg).seen = [s.regs] ∧ (s.latchCmd op arg).frame = s.frame ∧ (s.latchCmd op arg).blbuf = s.blbuf ∧
    (s.latchCmd op arg).hsb = s.hsb ∧ (s.latchCmd op arg).ha = s.ha ∧ (s.latchCmd op arg).bi = s.bi ∧
    (s.latchCmd op arg).curOp = op ∧ (s.latchCmd op arg).curArg = arg ∧ (s.latchCmd op arg).req = s.req ∧
    (s.latchCmd op arg).touchIrq = s.touchIrq ∧ (s.latchCmd op arg).inputs = s.inputs ∧
    (s.latchCmd op arg).trace = s.trace :=
  ⟨rfl, rfl, rfl, rfl, rfl, rfl, rfl, rfl, rfl, rfl, rfl, rfl, rfl, rfl, rfl, rfl, rfl, rfl, rfl, rfl, rfl, rfl⟩

/-- `clearFrame` writes frame and leaves every other field. -/
@[simp] theorem State.clearFrame_fields :
    (s.clearFrame).params = s.params ∧ (s.clearFrame).cfg = s.cfg ∧ (s.clearFrame).st = s.st ∧
    (s.clearFrame).lbl = s.lbl ∧ (s.clearFrame).sleeping = s.sleeping ∧ (s.clearFrame).rstClaimed = s.rstClaimed ∧
    (s.clearFrame).intClaimed = s.intClaimed ∧ (s.clearFrame).result = s.result ∧ (s.clearFrame).diag = s.diag ∧
    (s.clearFrame).regs = s.regs ∧ (s.clearFrame).seen = s.seen ∧
    (s.clearFrame).frame = List.replicate s.params.lit.frameLayoutLen 0 ∧ (s.clearFrame).blbuf = s.blbuf ∧
    (s.clearFrame).hsb = s.hsb ∧ (s.clearFrame).ha = s.ha ∧ (s.clearFrame).bi = s.bi ∧
    (s.clearFrame).curOp = s.curOp ∧ (s.clearFrame).curArg = s.curArg ∧ (s.clearFrame).req = s.req ∧
    (s.clearFrame).touchIrq = s.touchIrq ∧ (s.clearFrame).inputs = s.inputs ∧ (s.clearFrame).trace = s.trace :=
  ⟨rfl, rfl, rfl, rfl, rfl, rfl, rfl, rfl, rfl, rfl, rfl, rfl, rfl, rfl, rfl, rfl, rfl, rfl, rfl, rfl, rfl, rfl⟩

/-- `clearBlbuf` writes blbuf and leaves every other field. -/
@[simp] theorem State.clearBlbuf_fields :
    (s.clearBlbuf).params = s.params ∧ (s.clearBlbuf).cfg = s.cfg ∧ (s.clearBlbuf).st = s.st ∧
    (s.clearBlbuf).lbl = s.lbl ∧ (s.clearBlbuf).sleeping = s.sleeping ∧ (s.clearBlbuf).rstClaimed = s.rstClaimed ∧
    (s.clearBlbuf).intClaimed = s.intClaimed ∧ (s.clearBlbuf).result = s.result ∧ (s.clearBlbuf).diag = s.diag ∧
    (s.clearBlbuf).regs = s.regs ∧ (s.clearBlbuf).seen = s.seen ∧ (s.clearBlbuf).frame = s.frame ∧
    (s.clearBlbuf).blbuf = List.replicate s.params.lit.blFrameLen 0 ∧ (s.clearBlbuf).hsb = s.hsb ∧
    (s.clearBlbuf).ha = s.ha ∧ (s.clearBlbuf).bi = s.bi ∧ (s.clearBlbuf).curOp = s.curOp ∧
    (s.clearBlbuf).curArg = s.curArg ∧ (s.clearBlbuf).req = s.req ∧ (s.clearBlbuf).touchIrq = s.touchIrq ∧
    (s.clearBlbuf).inputs = s.inputs ∧ (s.clearBlbuf).trace = s.trace :=
  ⟨rfl, rfl, rfl, rfl, rfl, rfl, rfl, rfl, rfl, rfl, rfl, rfl, rfl, rfl, rfl, rfl, rfl, rfl, rfl, rfl, rfl, rfl⟩

/-- `clearHsb` writes hsb and leaves every other field. -/
@[simp] theorem State.clearHsb_fields :
    (s.clearHsb).params = s.params ∧ (s.clearHsb).cfg = s.cfg ∧ (s.clearHsb).st = s.st ∧ (s.clearHsb).lbl = s.lbl ∧
    (s.clearHsb).sleeping = s.sleeping ∧ (s.clearHsb).rstClaimed = s.rstClaimed ∧
    (s.clearHsb).intClaimed = s.intClaimed ∧ (s.clearHsb).result = s.result ∧ (s.clearHsb).diag = s.diag ∧
    (s.clearHsb).regs = s.regs ∧ (s.clearHsb).seen = s.seen ∧ (s.clearHsb).frame = s.frame ∧
    (s.clearHsb).blbuf = s.blbuf ∧ (s.clearHsb).hsb = 0 ∧ (s.clearHsb).ha = s.ha ∧ (s.clearHsb).bi = s.bi ∧
    (s.clearHsb).curOp = s.curOp ∧ (s.clearHsb).curArg = s.curArg ∧ (s.clearHsb).req = s.req ∧
    (s.clearHsb).touchIrq = s.touchIrq ∧ (s.clearHsb).inputs = s.inputs ∧ (s.clearHsb).trace = s.trace :=
  ⟨rfl, rfl, rfl, rfl, rfl, rfl, rfl, rfl, rfl, rfl, rfl, rfl, rfl, rfl, rfl, rfl, rfl, rfl, rfl, rfl, rfl, rfl⟩

/-- `fillFrame` writes frame and leaves every other field. -/
@[simp] theorem State.fillFrame_fields (d : List Byte) :
    (s.fillFrame d).params = s.params ∧ (s.fillFrame d).cfg = s.cfg ∧ (s.fillFrame d).st = s.st ∧
    (s.fillFrame d).lbl = s.lbl ∧ (s.fillFrame d).sleeping = s.sleeping ∧ (s.fillFrame d).rstClaimed = s.rstClaimed ∧
    (s.fillFrame d).intClaimed = s.intClaimed ∧ (s.fillFrame d).result = s.result ∧ (s.fillFrame d).diag = s.diag ∧
    (s.fillFrame d).regs = s.regs ∧ (s.fillFrame d).seen = s.seen ∧ (s.fillFrame d).frame = latch s.frame d ∧
    (s.fillFrame d).blbuf = s.blbuf ∧ (s.fillFrame d).hsb = s.hsb ∧ (s.fillFrame d).ha = s.ha ∧
    (s.fillFrame d).bi = s.bi ∧ (s.fillFrame d).curOp = s.curOp ∧ (s.fillFrame d).curArg = s.curArg ∧
    (s.fillFrame d).req = s.req ∧ (s.fillFrame d).touchIrq = s.touchIrq ∧ (s.fillFrame d).inputs = s.inputs ∧
    (s.fillFrame d).trace = s.trace :=
  ⟨rfl, rfl, rfl, rfl, rfl, rfl, rfl, rfl, rfl, rfl, rfl, rfl, rfl, rfl, rfl, rfl, rfl, rfl, rfl, rfl, rfl, rfl⟩

/-- `fillBlbuf` writes blbuf and leaves every other field. -/
@[simp] theorem State.fillBlbuf_fields (d : List Byte) :
    (s.fillBlbuf d).params = s.params ∧ (s.fillBlbuf d).cfg = s.cfg ∧ (s.fillBlbuf d).st = s.st ∧
    (s.fillBlbuf d).lbl = s.lbl ∧ (s.fillBlbuf d).sleeping = s.sleeping ∧ (s.fillBlbuf d).rstClaimed = s.rstClaimed ∧
    (s.fillBlbuf d).intClaimed = s.intClaimed ∧ (s.fillBlbuf d).result = s.result ∧ (s.fillBlbuf d).diag = s.diag ∧
    (s.fillBlbuf d).regs = s.regs ∧ (s.fillBlbuf d).seen = s.seen ∧ (s.fillBlbuf d).frame = s.frame ∧
    (s.fillBlbuf d).blbuf = latch s.blbuf d ∧ (s.fillBlbuf d).hsb = s.hsb ∧ (s.fillBlbuf d).ha = s.ha ∧
    (s.fillBlbuf d).bi = s.bi ∧ (s.fillBlbuf d).curOp = s.curOp ∧ (s.fillBlbuf d).curArg = s.curArg ∧
    (s.fillBlbuf d).req = s.req ∧ (s.fillBlbuf d).touchIrq = s.touchIrq ∧ (s.fillBlbuf d).inputs = s.inputs ∧
    (s.fillBlbuf d).trace = s.trace :=
  ⟨rfl, rfl, rfl, rfl, rfl, rfl, rfl, rfl, rfl, rfl, rfl, rfl, rfl, rfl, rfl, rfl, rfl, rfl, rfl, rfl, rfl, rfl⟩

/-- `fillHsb` writes hsb and leaves every other field. -/
@[simp] theorem State.fillHsb_fields (d : List Byte) :
    (s.fillHsb d).params = s.params ∧ (s.fillHsb d).cfg = s.cfg ∧ (s.fillHsb d).st = s.st ∧
    (s.fillHsb d).lbl = s.lbl ∧ (s.fillHsb d).sleeping = s.sleeping ∧ (s.fillHsb d).rstClaimed = s.rstClaimed ∧
    (s.fillHsb d).intClaimed = s.intClaimed ∧ (s.fillHsb d).result = s.result ∧ (s.fillHsb d).diag = s.diag ∧
    (s.fillHsb d).regs = s.regs ∧ (s.fillHsb d).seen = s.seen ∧ (s.fillHsb d).frame = s.frame ∧
    (s.fillHsb d).blbuf = s.blbuf ∧ (s.fillHsb d).hsb = d.headD s.hsb ∧ (s.fillHsb d).ha = s.ha ∧
    (s.fillHsb d).bi = s.bi ∧ (s.fillHsb d).curOp = s.curOp ∧ (s.fillHsb d).curArg = s.curArg ∧
    (s.fillHsb d).req = s.req ∧ (s.fillHsb d).touchIrq = s.touchIrq ∧ (s.fillHsb d).inputs = s.inputs ∧
    (s.fillHsb d).trace = s.trace :=
  ⟨rfl, rfl, rfl, rfl, rfl, rfl, rfl, rfl, rfl, rfl, rfl, rfl, rfl, rfl, rfl, rfl, rfl, rfl, rfl, rfl, rfl, rfl⟩

/-- `gpioSet` writes trace and leaves every other field. -/
@[simp] theorem State.gpioSet_fields (pin : Nat) (level : Bool) :
    (s.gpioSet pin level).params = s.params ∧ (s.gpioSet pin level).cfg = s.cfg ∧ (s.gpioSet pin level).st = s.st ∧
    (s.gpioSet pin level).lbl = s.lbl ∧ (s.gpioSet pin level).sleeping = s.sleeping ∧
    (s.gpioSet pin level).rstClaimed = s.rstClaimed ∧ (s.gpioSet pin level).intClaimed = s.intClaimed ∧
    (s.gpioSet pin level).result = s.result ∧ (s.gpioSet pin level).diag = s.diag ∧
    (s.gpioSet pin level).regs = s.regs ∧ (s.gpioSet pin level).seen = s.seen ∧
    (s.gpioSet pin level).frame = s.frame ∧ (s.gpioSet pin level).blbuf = s.blbuf ∧
    (s.gpioSet pin level).hsb = s.hsb ∧ (s.gpioSet pin level).ha = s.ha ∧ (s.gpioSet pin level).bi = s.bi ∧
    (s.gpioSet pin level).curOp = s.curOp ∧ (s.gpioSet pin level).curArg = s.curArg ∧
    (s.gpioSet pin level).req = s.req ∧ (s.gpioSet pin level).touchIrq = s.touchIrq ∧
    (s.gpioSet pin level).inputs = s.inputs ∧ (s.gpioSet pin level).trace = .gpioSet pin level :: s.trace :=
  ⟨rfl, rfl, rfl, rfl, rfl, rfl, rfl, rfl, rfl, rfl, rfl, rfl, rfl, rfl, rfl, rfl, rfl, rfl, rfl, rfl, rfl, rfl⟩

/-- `releaseRst` writes rstClaimed, trace and leaves every other field. -/
@[simp] theorem State.releaseRst_fields :
    (s.releaseRst).params = s.params ∧ (s.releaseRst).cfg = s.cfg ∧ (s.releaseRst).st = s.st ∧
    (s.releaseRst).lbl = s.lbl ∧ (s.releaseRst).sleeping = s.sleeping ∧ (s.releaseRst).rstClaimed = false ∧
    (s.releaseRst).intClaimed = s.intClaimed ∧ (s.releaseRst).result = s.result ∧ (s.releaseRst).diag = s.diag ∧
    (s.releaseRst).regs = s.regs ∧ (s.releaseRst).seen = s.seen ∧ (s.releaseRst).frame = s.frame ∧
    (s.releaseRst).blbuf = s.blbuf ∧ (s.releaseRst).hsb = s.hsb ∧ (s.releaseRst).ha = s.ha ∧
    (s.releaseRst).bi = s.bi ∧ (s.releaseRst).curOp = s.curOp ∧ (s.releaseRst).curArg = s.curArg ∧
    (s.releaseRst).req = s.req ∧ (s.releaseRst).touchIrq = s.touchIrq ∧ (s.releaseRst).inputs = s.inputs ∧
    (s.releaseRst).trace = .gpioRelease s.rstPin :: s.trace :=
  ⟨rfl, rfl, rfl, rfl, rfl, rfl, rfl, rfl, rfl, rfl, rfl, rfl, rfl, rfl, rfl, rfl, rfl, rfl, rfl, rfl, rfl, rfl⟩

/-- `releaseInt` writes intClaimed, trace and leaves every other field. -/
@[simp] theorem State.releaseInt_fields :
    (s.releaseInt).params = s.params ∧ (s.releaseInt).cfg = s.cfg ∧ (s.releaseInt).st = s.st ∧
    (s.releaseInt).lbl = s.lbl ∧ (s.releaseInt).sleeping = s.sleeping ∧ (s.releaseInt).rstClaimed = s.rstClaimed ∧
    (s.releaseInt).intClaimed = false ∧ (s.releaseInt).result = s.result ∧ (s.releaseInt).diag = s.diag ∧
    (s.releaseInt).regs = s.regs ∧ (s.releaseInt).seen = s.seen ∧ (s.releaseInt).frame = s.frame ∧
    (s.releaseInt).blbuf = s.blbuf ∧ (s.releaseInt).hsb = s.hsb ∧ (s.releaseInt).ha = s.ha ∧
    (s.releaseInt).bi = s.bi ∧ (s.releaseInt).curOp = s.curOp ∧ (s.releaseInt).curArg = s.curArg ∧
    (s.releaseInt).req = s.req ∧ (s.releaseInt).touchIrq = s.touchIrq ∧ (s.releaseInt).inputs = s.inputs ∧
    (s.releaseInt).trace = .gpioRelease s.intPin :: s.trace :=
  ⟨rfl, rfl, rfl, rfl, rfl, rfl, rfl, rfl, rfl, rfl, rfl, rfl, rfl, rfl, rfl, rfl, rfl, rfl, rfl, rfl, rfl, rfl⟩

/-- `quiet` writes touchIrq and leaves every other field. -/
@[simp] theorem State.quiet_fields :
    (s.quiet).params = s.params ∧ (s.quiet).cfg = s.cfg ∧ (s.quiet).st = s.st ∧ (s.quiet).lbl = s.lbl ∧
    (s.quiet).sleeping = s.sleeping ∧ (s.quiet).rstClaimed = s.rstClaimed ∧ (s.quiet).intClaimed = s.intClaimed ∧
    (s.quiet).result = s.result ∧ (s.quiet).diag = s.diag ∧ (s.quiet).regs = s.regs ∧ (s.quiet).seen = s.seen ∧
    (s.quiet).frame = s.frame ∧ (s.quiet).blbuf = s.blbuf ∧ (s.quiet).hsb = s.hsb ∧ (s.quiet).ha = s.ha ∧
    (s.quiet).bi = s.bi ∧ (s.quiet).curOp = s.curOp ∧ (s.quiet).curArg = s.curArg ∧ (s.quiet).req = s.req ∧
    (s.quiet).touchIrq = false ∧ (s.quiet).inputs = s.inputs ∧ (s.quiet).trace = s.trace :=
  ⟨rfl, rfl, rfl, rfl, rfl, rfl, rfl, rfl, rfl, rfl, rfl, rfl, rfl, rfl, rfl, rfl, rfl, rfl, rfl, rfl, rfl, rfl⟩

/-- `taken` writes inputs and leaves every other field. -/
@[simp] theorem State.taken_fields :
    (s.taken).params = s.params ∧ (s.taken).cfg = s.cfg ∧ (s.taken).st = s.st ∧ (s.taken).lbl = s.lbl ∧
    (s.taken).sleeping = s.sleeping ∧ (s.taken).rstClaimed = s.rstClaimed ∧ (s.taken).intClaimed = s.intClaimed ∧
    (s.taken).result = s.result ∧ (s.taken).diag = s.diag ∧ (s.taken).regs = s.regs ∧ (s.taken).seen = s.seen ∧
    (s.taken).frame = s.frame ∧ (s.taken).blbuf = s.blbuf ∧ (s.taken).hsb = s.hsb ∧ (s.taken).ha = s.ha ∧
    (s.taken).bi = s.bi ∧ (s.taken).curOp = s.curOp ∧ (s.taken).curArg = s.curArg ∧ (s.taken).req = s.req ∧
    (s.taken).touchIrq = s.touchIrq ∧ (s.taken).inputs = s.inputs.tail ∧ (s.taken).trace = s.trace :=
  ⟨rfl, rfl, rfl, rfl, rfl, rfl, rfl, rfl, rfl, rfl, rfl, rfl, rfl, rfl, rfl, rfl, rfl, rfl, rfl, rfl, rfl, rfl⟩

/-- CFG's fields depend on CFG and on PIN_W only. -/
theorem State.cfg_fields_congr {s t : State} (h : t.cfg = s.cfg) (hp : t.params = s.params) :
    t.rstEn = s.rstEn ∧ t.rstLvl = s.rstLvl ∧ t.intEn = s.intEn ∧ t.intLvl = s.intLvl ∧ t.rstPin = s.rstPin ∧
      t.intPin = s.intPin ∧ t.activeEdge = s.activeEdge := by
  unfold State.activeEdge State.rstEn State.rstLvl State.intEn State.intLvl State.rstPin State.intPin
  rw [h, hp]
  exact ⟨rfl, rfl, rfl, rfl, rfl, rfl, rfl⟩

/-- BUSY depends on ST only. -/
theorem State.busy_congr {s t : State} (h : t.st = s.st) : t.busy = s.busy := by simp [State.busy, h]

/-- A hardware reset keeps the parameters, the inputs and the trace. -/
@[simp] theorem State.hardwareReset_kept :
    s.hardwareReset.params = s.params ∧ s.hardwareReset.inputs = s.inputs ∧ s.hardwareReset.trace = s.trace :=
  ⟨rfl, rfl, rfl⟩

end Sys2Proof.Machine
end

