-- ==== Sys2Proof/Laws/Codec.lean ====
section
/-! SUPPORT. The wire codec's functions as arithmetic: what each answers, as natural numbers and bits. -/

namespace Sys2Proof.Machine

/-- be16 as a number (R170). -/
theorem be16_toNat (hi lo : Byte) : (be16 hi lo).toNat = hi.toNat * 256 + lo.toNat := by
  have hh := hi.isLt
  have hl := lo.isLt
  have e1 : hi.toNat % 65536 = hi.toNat := Nat.mod_eq_of_lt (by omega)
  have e2 : lo.toNat % 65536 = lo.toNat := Nat.mod_eq_of_lt (by omega)
  have e3 : hi.toNat <<< 8 % 65536 = hi.toNat <<< 8 := Nat.mod_eq_of_lt (by rw [Nat.shiftLeft_eq]; omega)
  simp only [be16, BitVec.toNat_or, BitVec.toNat_shiftLeft, BitVec.truncate_eq_setWidth, BitVec.toNat_setWidth,
    Nat.reducePow, e1, e2, e3]
  rw [← Nat.shiftLeft_add_eq_or_of_lt (by omega), Nat.shiftLeft_eq]

/-- be16 is the concatenation of its bytes (R170). -/
theorem be16_eq_append (hi lo : Byte) : be16 hi lo = (hi ++ lo : BitVec (8 + 8)) := by
  apply BitVec.eq_of_toNat_eq
  have hl := lo.isLt
  rw [be16_toNat, BitVec.toNat_append, ← Nat.shiftLeft_add_eq_or_of_lt (by omega), Nat.shiftLeft_eq]

/-- COUNT_MASK as arithmetic: the low nibble (R172). -/
theorem countMask_toNat (ts : Byte) : (ts &&& Literals.shown.countMask).toNat = ts.toNat % 16 := by
  have h : (ts &&& (0x0F : Byte)).toNat = ts.toNat &&& (2 ^ 4 - 1) := by simp
  rw [Nat.and_two_pow_sub_one_eq_mod] at h
  exact h

/-- The validated count as a number (R172). -/
theorem validCount_toNat (ts : Byte) :
    (validCount .shown ts).toNat = if ts.toNat % 16 ≤ 2 then ts.toNat % 16 else 0 := by
  have e := countMask_toNat ts
  have hm : Literals.shown.maxPoints = 2 := rfl
  unfold validCount
  rw [e, hm]
  split
  · rw [BitVec.extractLsb'_toNat, e, Nat.shiftRight_zero]
    omega
  · rfl

/-- The validated count never exceeds MAX_POINTS (R172). -/
theorem validCount_le_two (ts : Byte) : (validCount .shown ts).toNat ≤ 2 := by
  rw [validCount_toNat]
  split <;> omega

/-- What latching leaves at an index: the delivered byte if one was delivered there, else the old one (R83). -/
theorem latch_getElem (b d : List Byte) (i : Nat) (h : i < b.length) :
    (latch b d)[i]'(by simpa [latch] using h) = d.getD i b[i] := by
  simp [latch]

/-- Latching keeps a buffer's length (R83). -/
@[simp] theorem latch_length (b d : List Byte) : (latch b d).length = b.length := by
  simp [latch]

/-- Latching no bytes changes nothing (R83). -/
@[simp] theorem latch_nil (b : List Byte) : latch b [] = b := by
  apply List.ext_getElem <;> simp [latch]

/-- Latching into a zeroed buffer leaves the delivered bytes, then zeros (R83, R160). -/
theorem latch_zero (n : Nat) (d : List Byte) : latch (List.replicate n 0) d = readBuffer n d := by
  apply List.ext_getElem <;> simp [latch, readBuffer]

/-- A byte of a read's buffer: the delivered one, or zero (R83, R160). -/
theorem readBuffer_getD (n : Nat) (d : List Byte) (i : Nat) (h : i < n) : (readBuffer n d).getD i 0 = d.getD i 0 := by
  simp [readBuffer, h]

/-- A read's buffer has its length. -/
@[simp] theorem readBuffer_length (n : Nat) (d : List Byte) : (readBuffer n d).length = n := by
  simp [readBuffer]

/-- The flip function undoes itself (R207). -/
theorem flipHsBit_flipHsBit (l : Literals) (b : Byte) : flipHsBit l (flipHsBit l b) = b := by
  simp [flipHsBit]

/-- The flip function with HS_BIT = 7 is XOR 0x80 (R200). -/
theorem flipHsBit_shown (b : Byte) : flipHsBit .shown b = b ^^^ 0x80 := rfl

/-- The published values of a decode stay within their fields' ranges (R46). -/
theorem decodedRegs_count_le (f : List Byte) (r : Published) : (decodedRegs .shown f r).count.toNat ≤ 2 :=
  validCount_le_two _

end Sys2Proof.Machine
end

