-- ==== Sys2Proof/Laws/Decode.lean ====
section
/-! SUPPORT. Fields of numbers (R12), and of packed words: what was packed reads back (R111, R118). -/

namespace Sys2Proof

/-- A field is within its width. -/
theorem field_lt (v lo w : Nat) : field v lo w < 2 ^ w := Nat.mod_lt _ (Nat.two_pow_pos w)

/-- The field from bit 0 is the remainder. -/
@[simp] theorem field_zero (v w : Nat) : field v 0 w = v % 2 ^ w := by
  rw [field, Nat.pow_zero, Nat.div_one]

/-- A number that fits the width is its own field. -/
theorem field_of_lt {v w : Nat} (h : v < 2 ^ w) : field v 0 w = v := by
  rw [field_zero, Nat.mod_eq_of_lt h]

/-- Of `hi` over `lo`, the low field is `lo` and what lies above it is `hi`. -/
theorem append_field {hi lo w : Nat} (h : lo < 2 ^ w) :
    (hi * 2 ^ w + lo) % 2 ^ w = lo ∧ (hi * 2 ^ w + lo) / 2 ^ w = hi := by
  have hp : 0 < 2 ^ w := Nat.two_pow_pos w
  rw [Nat.mul_comm]
  exact ⟨by rw [Nat.mul_add_mod, Nat.mod_eq_of_lt h],
    by rw [Nat.mul_add_div hp, Nat.div_eq_of_lt h, Nat.add_zero]⟩

section HeaderFields

variable (l : Literals) (read : Bool) (dev : BitVec 7) (reg : Nat) (len : Byte)

/-- LEN of a packed header is its low byte, and the rest is DIR, DEV and REG (R118). -/
theorem packHeader_split :
    packHeader l read dev reg len % 2 ^ 8 = len.toNat ∧
      packHeader l read dev reg len / 2 ^ 8 =
        (read.toNat * 2 ^ 7 + dev.toNat) * 2 ^ l.bregW + field reg 0 l.bregW :=
  append_field len.isLt

/-- Above REG stand DEV and DIR (R118). -/
theorem packHeader_upper :
    packHeader l read dev reg len / 2 ^ 8 % 2 ^ l.bregW = field reg 0 l.bregW ∧
      packHeader l read dev reg len / 2 ^ (8 + l.bregW) = read.toNat * 2 ^ 7 + dev.toNat := by
  rw [Nat.pow_add, ← Nat.div_div_eq_div_mul, (packHeader_split l read dev reg len).2]
  exact append_field (field_lt _ _ _)

/-- LEN reads back. -/
@[simp] theorem headerLen_packHeader : headerLen (packHeader l read dev reg len) = len := by
  apply BitVec.eq_of_toNat_eq
  rw [headerLen, BitVec.toNat_ofNat, (packHeader_split l read dev reg len).1]

/-- With R10's widths the header's REG is REG_BASE itself. -/
@[simp] theorem Literals.shown_busReg : Literals.shown.busReg = 0 ∧ Literals.shown.headerBytes = 3 := ⟨rfl, rfl⟩

/-- REG reads back, as BREG_W bits carry it. -/
@[simp] theorem headerReg_packHeader : headerReg l (packHeader l read dev reg len) = field reg 0 l.bregW :=
  (packHeader_upper l read dev reg len).1

/-- DEV reads back. -/
@[simp] theorem headerDev_packHeader : headerDev l (packHeader l read dev reg len) = dev := by
  apply BitVec.eq_of_toNat_eq
  rw [headerDev, BitVec.toNat_ofNat, (packHeader_upper l read dev reg len).2]
  exact (append_field dev.isLt).1

/-- DIR reads back. -/
@[simp] theorem headerDir_packHeader : headerDir l (packHeader l read dev reg len) = read := by
  have e : 15 + l.bregW = (8 + l.bregW) + 7 := by omega
  rw [headerDir, Nat.testBit_eq_decide_div_mod_eq, e, Nat.pow_add, ← Nat.div_div_eq_div_mul,
    (packHeader_upper l read dev reg len).2, (append_field dev.isLt).2]
  cases read <;> rfl

/-- A packed header fits its width. -/
theorem packHeader_lt : packHeader l read dev reg len < 2 ^ l.headerW := by
  have h := (packHeader_upper l read dev reg len).2
  have hd := dev.isLt
  have hr : read.toNat ≤ 1 := by cases read <;> decide
  have e : l.headerW = (8 + l.bregW) + 8 := by unfold Literals.headerW; omega
  rw [e, Nat.pow_add]
  have := Nat.div_lt_iff_lt_mul (x := packHeader l read dev reg len) (y := 2 ^ 8) (Nat.two_pow_pos (8 + l.bregW))
  rw [Nat.mul_comm]
  exact this.mp (by rw [h]; omega)

/-- So the decoder's width check passes a packed header. -/
@[simp] theorem headerW_le_packHeader : ¬ 2 ^ l.headerW ≤ packHeader l read dev reg len :=
  Nat.not_le.mpr (packHeader_lt l read dev reg len)

/-- A header that fits its width is its fields packed (R118). -/
theorem packHeader_fields {h : Nat} (hh : h < 2 ^ l.headerW) :
    packHeader l (headerDir l h) (headerDev l h) (headerReg l h) (headerLen h) = h := by
  have hu : h / 2 ^ (8 + l.bregW) < 2 ^ 8 := by
    have e : l.headerW = 8 + (8 + l.bregW) := by unfold Literals.headerW; omega
    rw [e, Nat.pow_add] at hh
    exact (Nat.div_lt_iff_lt_mul (Nat.two_pow_pos _)).mpr hh
  have ed : (headerDir l h).toNat = h / 2 ^ (8 + l.bregW) / 2 ^ 7 := by
    have e : 15 + l.bregW = (8 + l.bregW) + 7 := by omega
    rw [headerDir, Nat.testBit_eq_decide_div_mod_eq, e, Nat.pow_add, ← Nat.div_div_eq_div_mul]
    rcases Nat.lt_or_ge (h / 2 ^ (8 + l.bregW)) (2 ^ 7) with hlt | hge
    · rw [Nat.div_eq_of_lt hlt]; rfl
    · have : h / 2 ^ (8 + l.bregW) / 2 ^ 7 = 1 := by omega
      rw [this]; rfl
  have ev : (headerDev l h).toNat = h / 2 ^ (8 + l.bregW) % 2 ^ 7 := BitVec.toNat_ofNat ..
  have er : headerReg l h = h / 2 ^ 8 % 2 ^ l.bregW := rfl
  have el : (headerLen h).toNat = h % 2 ^ 8 := BitVec.toNat_ofNat ..
  rw [packHeader, ed, ev, el, er, field_zero, Nat.mod_mod, Nat.div_add_mod', Nat.pow_add,
    ← Nat.div_div_eq_div_mul, Nat.div_add_mod', Nat.div_add_mod']

end HeaderFields

/-- Packed bytes make the number's low bytes again (R118, log 13). -/
@[simp] theorem toBytes_length (n v : Nat) : (toBytes n v).length = n := by
  induction n with
  | zero => rfl
  | succ n ih => simp [toBytes, ih]

/-- A number's bytes, put after an accumulated number (log 13). -/
theorem foldl_toBytes (n v a : Nat) :
    (toBytes n v).foldl (fun u b => u * 2 ^ 8 + b.toNat) a = a * 2 ^ (8 * n) + v % 2 ^ (8 * n) := by
  induction n generalizing a with
  | zero => simp [toBytes, Nat.mod_one]
  | succ n ih =>
    have e : 8 * (n + 1) = 8 * n + 8 := by omega
    rw [toBytes, List.foldl_cons, ih, BitVec.toNat_ofNat, e, Nat.pow_add, Nat.mod_mul, Nat.add_mul, Nat.mul_assoc,
      Nat.mul_comm (2 ^ 8), Nat.mul_comm (v / 2 ^ (8 * n) % 2 ^ 8), Nat.add_assoc,
      Nat.add_comm (2 ^ (8 * n) * _)]

/-- The number of a number's low bytes (log 13). -/
theorem ofBytes_toBytes (n v : Nat) : ofBytes (toBytes n v) = v % 2 ^ (8 * n) := by
  rw [ofBytes, foldl_toBytes, Nat.zero_mul, Nat.zero_add]

section Command

variable (arg op : BitVec 4)

/-- OP reads back. -/
@[simp] theorem cmdOp_packCmd : cmdOp (packCmd arg op) = op := by
  apply BitVec.eq_of_toNat_eq
  rw [cmdOp, BitVec.toNat_ofNat]
  exact (append_field op.isLt).1

/-- ARG reads back. -/
@[simp] theorem cmdArg_packCmd : cmdArg (packCmd arg op) = arg := by
  apply BitVec.eq_of_toNat_eq
  rw [cmdArg, packCmd, (append_field op.isLt).2, BitVec.toNat_ofNat, Nat.mod_eq_of_lt arg.isLt]

/-- RSV of a packed word is 0. -/
@[simp] theorem cmdRsv_packCmd : cmdRsv (packCmd arg op) = 0 := by
  have h1 := op.isLt
  have h2 := arg.isLt
  unfold cmdRsv packCmd
  omega

/-- A word whose RSV is 0 is its fields packed. -/
theorem packCmd_fields {w : Nat} (h : cmdRsv w = 0) : packCmd (cmdArg w) (cmdOp w) = w := by
  unfold cmdRsv at h
  unfold packCmd cmdArg cmdOp
  rw [BitVec.toNat_ofNat, BitVec.toNat_ofNat]
  omega

/-- A word the decoder accepts has RSV = 0, so it is below 256 (R114). -/
theorem decodeCmd16_ok_lt {w : Nat} {i : Instr} (h : decodeCmd16 w = .ok i) : w < 256 := by
  unfold decodeCmd16 at h
  split at h
  case isTrue => cases h
  case isFalse hr => unfold cmdRsv at hr; omega

end Command

end Sys2Proof
end

