-- ==== Sys2Proof/Laws/Ops.lean ====
section
/-! SUPPORT. For each shared operation, once, everything it can do: what holds if it answers a next state, and when it
refuses. Proofs cite these and do not unfold the operations. -/

namespace Sys2Proof.Machine

variable {s t : State}

/-- A write transaction that answers a next state was issued, answered, or is waited for. -/
theorem busWrite_next {here : Bool} {d : List Byte} {k : Bool → State → State} (h : busWrite here d k s = .next t) :
    here = true ∧
      ((s.req = none ∧ t = s.issue (.bus (memWrite s.params.lit d))) ∨
        (s.req = some (.bus (memWrite s.params.lit d)) ∧
          ((∃ ok rest, s.inputs = .writeAnswer ok :: rest ∧ t = k ok s.answered) ∨
            (t = s ∧ ∀ ok rest, s.inputs ≠ .writeAnswer ok :: rest)))) := by
  unfold busWrite at h
  split at h
  case isFalse => cases h
  case isTrue hh =>
    refine ⟨hh, ?_⟩
    split at h
    case h_1 hr => cases h; exact .inl ⟨hr, rfl⟩
    case h_2 q hr =>
      split at h
      case isFalse => cases h
      case isTrue hq =>
        subst hq
        refine .inr ⟨hr, ?_⟩
        split at h
        case h_1 ok rest hi => cases h; exact .inl ⟨ok, rest, hi, rfl⟩
        case h_2 hn => cases h; exact .inr ⟨rfl, fun ok rest hi => hn ok rest hi⟩

/-- A write transaction refuses only away from its place in the event order. -/
theorem busWrite_refused {here : Bool} {d : List Byte} {k : Bool → State → State} {r : Refusal}
    (h : busWrite here d k s = .refused r) :
    r = .offSequence ∧ (here = false ∨ ∃ q, s.req = some q ∧ q ≠ .bus (memWrite s.params.lit d)) := by
  unfold busWrite at h
  split at h
  case isFalse hh => cases h; exact ⟨rfl, .inl (by simpa using hh)⟩
  case isTrue =>
    split at h
    case h_1 => cases h
    case h_2 q hr =>
      split at h
      case isFalse hq => cases h; exact ⟨rfl, .inr ⟨q, hr, hq⟩⟩
      case isTrue => split at h <;> cases h

/-- At its place with no request outstanding, a write transaction is issued. -/
theorem busWrite_issue {d : List Byte} {k : Bool → State → State} (hr : s.req = none) :
    busWrite true d k s = .next (s.issue (.bus (memWrite s.params.lit d))) := by
  simp [busWrite, hr]

/-- At its place with its request outstanding, a write transaction takes the answer. -/
theorem busWrite_answer {d : List Byte} {k : Bool → State → State} {ok : Bool} {rest : List Input}
    (hr : s.req = some (.bus (memWrite s.params.lit d))) (hi : s.inputs = .writeAnswer ok :: rest) :
    busWrite true d k s = .next (k ok s.answered) := by
  simp [busWrite, hr, hi]

/-- A read transaction that answers a next state was issued over a zeroed buffer, legally answered, or is waited for. -/
theorem busRead_next {here : Bool} {n : Nat} {clear : State → State} {fill : List Byte → State → State}
    {k : Bool → State → State} (h : busRead here n clear fill k s = .next t) :
    here = true ∧
      ((s.req = none ∧ t = (clear s).issue (.bus (memRead s.params.lit n))) ∨
        (s.req = some (.bus (memRead s.params.lit n)) ∧
          ((∃ ok d rest, s.inputs = .readAnswer ok d :: rest ∧ legalRead n ok d = true ∧
              t = k ok (fill d s.answered)) ∨
            (t = s ∧ ∀ ok d rest, s.inputs ≠ .readAnswer ok d :: rest)))) := by
  unfold busRead at h
  split at h
  case isFalse => cases h
  case isTrue hh =>
    refine ⟨hh, ?_⟩
    split at h
    case h_1 hr => cases h; exact .inl ⟨hr, rfl⟩
    case h_2 q hr =>
      split at h
      case isFalse => cases h
      case isTrue hq =>
        subst hq
        refine .inr ⟨hr, ?_⟩
        split at h
        case h_1 ok d rest hi =>
          split at h
          case isTrue hl => cases h; exact .inl ⟨ok, d, rest, hi, hl, rfl⟩
          case isFalse => cases h
        case h_2 hn => cases h; exact .inr ⟨rfl, fun ok d rest hi => hn ok d rest hi⟩

/-- A read transaction refuses only away from its place, or when the response breaks the port's contract. -/
theorem busRead_refused {here : Bool} {n : Nat} {clear : State → State} {fill : List Byte → State → State}
    {k : Bool → State → State} {r : Refusal} (h : busRead here n clear fill k s = .refused r) :
    (r = .offSequence ∧ (here = false ∨ ∃ q, s.req = some q ∧ q ≠ .bus (memRead s.params.lit n))) ∨
      (r = .busContract ∧ ∃ ok d rest, s.inputs = .readAnswer ok d :: rest ∧ legalRead n ok d = false) := by
  unfold busRead at h
  split at h
  case isFalse hh => cases h; exact .inl ⟨rfl, .inl (by simpa using hh)⟩
  case isTrue =>
    split at h
    case h_1 => cases h
    case h_2 q hr =>
      split at h
      case isFalse hq => cases h; exact .inl ⟨rfl, .inr ⟨q, hr, hq⟩⟩
      case isTrue =>
        split at h
        case h_1 ok d rest hi =>
          split at h
          case isTrue => cases h
          case isFalse hl => cases h; exact .inr ⟨rfl, ok, d, rest, hi, by simpa using hl⟩
        case h_2 => cases h

/-- At its place with no request outstanding, a read transaction zeroes its buffer and is issued. -/
theorem busRead_issue {n : Nat} {clear : State → State} {fill : List Byte → State → State}
    {k : Bool → State → State} (hr : s.req = none) :
    busRead true n clear fill k s = .next ((clear s).issue (.bus (memRead s.params.lit n))) := by
  simp [busRead, hr]

/-- At its place with its request outstanding, a read transaction takes a legal answer. -/
theorem busRead_answer {n : Nat} {clear : State → State} {fill : List Byte → State → State}
    {k : Bool → State → State} {ok : Bool} {d : List Byte} {rest : List Input}
    (hr : s.req = some (.bus (memRead s.params.lit n))) (hi : s.inputs = .readAnswer ok d :: rest)
    (hl : legalRead n ok d = true) :
    busRead true n clear fill k s = .next (k ok (fill d s.answered)) := by
  simp [busRead, hr, hi, hl]

/-- A session command that answers a next state was dropped, rejected, or started (R115, R116). -/
theorem runSession_next {op arg : BitVec 4} {start : State → State} (h : runSession op arg start s = .next t) :
    (s.busy = true ∧ t = s) ∨
      (s.busy = false ∧ s.st ≠ .operational ∧ t = s.reject .errNoSession) ∨
      (s.st = .operational ∧ t = start (s.latchCmd op arg)) := by
  unfold runSession at h
  split at h
  case isTrue hb => cases h; exact .inl ⟨hb, rfl⟩
  case isFalse hb =>
    split at h
    case isTrue ho => cases h; exact .inr (.inr ⟨ho, rfl⟩)
    case isFalse ho => cases h; exact .inr (.inl ⟨by simpa using hb, ho, rfl⟩)

/-- A session command never refuses. -/
theorem runSession_not_refused {op arg : BitVec 4} {start : State → State} {r : Refusal} :
    runSession op arg start s ≠ .refused r := by
  unfold runSession
  split
  · simp
  · split <;> simp

/-- In OPERATIONAL a session command starts. -/
theorem runSession_start {op arg : BitVec 4} {start : State → State} (h : s.st = .operational) :
    runSession op arg start s = .next (start (s.latchCmd op arg)) := by
  simp [runSession, State.busy, St.busy, h]

/-- A request to the delay or GPIO port that answers a next state was issued, answered, or is waited for. -/
theorem awaitPort_next {r : Req} {take : Input → Option (State → State)} (h : awaitPort r take s = .next t) :
    (s.req = none ∧ t = s.issue r) ∨
      (s.req = some r ∧
        ((∃ a rest k, s.inputs = a :: rest ∧ take a = some k ∧ t = k s.answered) ∨ t = s)) := by
  unfold awaitPort at h
  split at h
  case h_1 hr => cases h; exact .inl ⟨hr, rfl⟩
  case h_2 q hr =>
    split at h
    case isFalse => cases h
    case isTrue hq =>
      subst hq
      refine .inr ⟨hr, ?_⟩
      split at h
      case h_1 k hk =>
        cases h
        cases hin : s.inputs with
        | nil => simp [hin] at hk
        | cons a rest => exact .inl ⟨a, rest, k, rfl, by simpa [hin] using hk, rfl⟩
      case h_2 => cases h; exact .inr rfl

/-- With no request outstanding, a port request is issued. -/
theorem awaitPort_issue {r : Req} {take : Input → Option (State → State)} (hr : s.req = none) :
    awaitPort r take s = .next (s.issue r) := by
  simp [awaitPort, hr]

/-- An outstanding delay takes `done` (R330). -/
theorem delayStep_answer {ms : Byte} {k : State → State} {rest : List Input} (hr : s.req = some (.delay ms))
    (hi : s.inputs = .delayDone :: rest) : delayStep ms k s = .next (k s.answered) := by
  simp [delayStep, awaitPort, hr, hi]

/-- An outstanding claim takes its answer (R331). -/
theorem claimStep_answer {pin : Nat} {dir : PinDir} {k : Bool → State → State} {ok : Bool} {rest : List Input}
    (hr : s.req = some (.claim pin dir)) (hi : s.inputs = .claimAnswer ok :: rest) :
    claimStep pin dir k s = .next (k ok s.answered) := by
  simp [claimStep, awaitPort, hr, hi]

/-- A delay that answers a next state was requested, is over, or is waited for (R330). -/
theorem delayStep_next {ms : Byte} {k : State → State} (h : delayStep ms k s = .next t) :
    (s.req = none ∧ t = s.issue (.delay ms)) ∨
      (s.req = some (.delay ms) ∧ ((∃ rest, s.inputs = .delayDone :: rest ∧ t = k s.answered) ∨ t = s)) := by
  rcases awaitPort_next h with h | ⟨hr, ⟨a, rest, k', hi, hk, ht⟩ | ht⟩
  · exact .inl h
  · cases a <;> simp at hk
    subst hk
    exact .inr ⟨hr, .inl ⟨rest, hi, ht⟩⟩
  · exact .inr ⟨hr, .inr ht⟩

/-- A claim that answers a next state was requested, is answered, or is waited for (R331). -/
theorem claimStep_next {pin : Nat} {dir : PinDir} {k : Bool → State → State} (h : claimStep pin dir k s = .next t) :
    (s.req = none ∧ t = s.issue (.claim pin dir)) ∨
      (s.req = some (.claim pin dir) ∧
        ((∃ ok rest, s.inputs = .claimAnswer ok :: rest ∧ t = k ok s.answered) ∨ t = s)) := by
  rcases awaitPort_next h with h | ⟨hr, ⟨a, rest, k', hi, hk, ht⟩ | ht⟩
  · exact .inl h
  · cases a <;> simp at hk
    subst hk
    exact .inr ⟨hr, .inl ⟨_, rest, hi, ht⟩⟩
  · exact .inr ⟨hr, .inr ht⟩

end Sys2Proof.Machine
end

