-- ==== Sys2Proof/Laws/PerInstr.lean ====
section
/-! SUPPORT. The per-instruction family PayloadLength: the length of an instruction's encoding is fixed by its format
(R126): a command is one word, and a bus request has exactly the payload bytes its header announces. -/

namespace Sys2Proof.Laws.PayloadLength

/-- The encoding's payload is as long as DIR and LEN of its header say, with the payloads R10 shows (R126). -/
def Statement (i : Instr) : Prop :=
  match encode .shown i with
  | .cmd16 _ => True
  | .busreq h payload => payload.length = payloadLength .shown h

/-- A write announces its payload, which LEN can count. -/
theorem ofWrite (payload : List Byte) (h : payload.length < 256) :
    match encodeWrite .shown payload with
    | .cmd16 _ => True
    | .busreq h payload => payload.length = payloadLength .shown h := by
  simp [encodeWrite, payloadLength, Nat.mod_eq_of_lt h]

/-- A read announces no payload, whatever its length field. -/
theorem ofRead (len : Nat) :
    match encodeRead .shown len with
    | .cmd16 _ => True
    | .busreq h payload => payload.length = payloadLength .shown h := by
  simp [encodeRead, payloadLength]

theorem init : Statement .init := trivial
theorem readData : Statement .readData := trivial
theorem getCoords (maxCount : Nat) : Statement (.getCoords maxCount) := trivial
theorem enterSleep : Statement .enterSleep := trivial
theorem exitSleep : Statement .exitSleep := trivial
theorem close : Statement .close := trivial
theorem softResetWr : Statement .softResetWr := ofWrite _ (by simp)
theorem keyUnlockWr : Statement .keyUnlockWr := ofWrite _ (by simp)
theorem blStatusRd : Statement .blStatusRd := ofRead _

theorem frameRd (len : Nat) : Statement (.frameRd len) := ofRead _
theorem hsRd : Statement .hsRd := ofRead _
theorem hsWr (value : Byte) : Statement (.hsWr value) := ofWrite _ (by simp)
theorem sleepWr : Statement .sleepWr := ofWrite _ (by simp)
theorem wakeWr : Statement .wakeWr := ofWrite _ (by simp)

end Sys2Proof.Laws.PayloadLength
end

