-- ==== Sys2Proof/Laws/Step.lean ====
section
/-! SUPPORT. What one step can do, once: the equations of `step` by the environment's move, and the inversion lemma from
which every whole-machine statement follows. -/

namespace Sys2Proof.Machine

variable {s t : State}

@[simp] theorem Action.run_ends (r : Host.Outcome State Fault Refusal) : (Action.ends r).run = r := rfl

@[simp] theorem Action.run_runs (i : Instr) (u : State) : (Action.runs i u).run = exec i u := rfl

/-- With nothing offered the TCB goes on by itself. -/
theorem step_nil (h : s.inputs = []) : step s = s.quiet.proceed.run := by
  simp [step, action, h]

/-- A tick lets the TCB go on when it waits for nothing. -/
theorem step_tick {rest : List Input} (h : s.inputs = .tick :: rest) (hr : s.req = none) :
    step s = s.quiet.taken.proceed.run := by
  simp [step, action, h, hr]

/-- An answer to the outstanding request is given to the procedure. -/
theorem step_answer {q : Req} {a : Input} {rest : List Input} (h : s.inputs = a :: rest) (hr : s.req = some q)
    (ha : q.answeredBy a = true) : step s = s.quiet.proceed.run := by
  cases q <;> cases a <;> simp [Req.answeredBy] at ha <;>
    simp [step, action, h, State.offered, hr, Req.answeredBy, ha]

/-- A command word written while BUSY = 0 is run if it is an instruction (R115). -/
theorem step_command {w : Nat} {rest : List Input} {i : Instr} (h : s.inputs = .hostWrite 0x00 w :: rest)
    (hb : s.busy = false) (hd : decodeCmd16 (field w 0 s.params.lit.hregW) = .ok i) :
    step s = exec i s.quiet.taken := by
  have hb' : s.quiet.taken.busy = false := hb
  have hp : s.quiet.taken.params = s.params := rfl
  simp only [step, action, h, State.hostWrite, if_true, hb', hp, hd, Bool.false_eq_true, if_false, Action.run_runs]

/-- A command word written while BUSY = 0 is rejected if it is no instruction (R114). -/
theorem step_illegal {w : Nat} {rest : List Input} {e : DecodeError} (h : s.inputs = .hostWrite 0x00 w :: rest)
    (hb : s.busy = false) (hd : decodeCmd16 (field w 0 s.params.lit.hregW) = .error e) :
    step s = .next (s.quiet.taken.reject .errIllegalCmd) := by
  have hb' : s.quiet.taken.busy = false := hb
  have hp : s.quiet.taken.params = s.params := rfl
  simp only [step, action, h, State.hostWrite, if_true, hb', hp, hd, Bool.false_eq_true, if_false, Action.run_ends]

/-- A command word written while BUSY = 1 is dropped (R116). -/
theorem step_dropped {w : Nat} {rest : List Input} (h : s.inputs = .hostWrite 0x00 w :: rest) (hb : s.busy = true) :
    step s = .next s.quiet.taken := by
  have hb' : s.quiet.taken.busy = true := hb
  simp only [step, action, h, State.hostWrite, if_true, hb', Action.run_ends]

/-- A write to CFG takes HREG_W bits inside its window, and nothing outside it (R35). -/
theorem step_cfg {v : Nat} {rest : List Input} (h : s.inputs = .hostWrite 0x01 v :: rest)
    (hi : 1 ≤ s.params.lit.haddrW) :
    step s = .next { s.quiet.taken with
      cfg := if s.st = .uninit ∨ s.st = .failed then field v 0 s.params.lit.hregW else s.cfg } := by
  have hx : hasIndex s.quiet.taken.params.lit 1 = true :=
    decide_eq_true (Nat.one_lt_two_pow (by exact Nat.one_le_iff_ne_zero.mp hi))
  have hw : s.quiet.taken.cfgWritable = true ↔ s.st = .uninit ∨ s.st = .failed := by simp [State.cfgWritable]
  by_cases hc : s.st = .uninit ∨ s.st = .failed
  · simp only [step, action, h, State.hostWrite, hx, hw.mpr hc, hc, if_true, and_self, Nat.one_ne_zero, if_false,
      Action.run_ends]
    rfl
  · simp only [step, action, h, State.hostWrite, hw, hc, and_false, Nat.one_ne_zero, if_false, Action.run_ends]
    rfl

/-- A host read sends the value and changes nothing else (R31, R90). -/
theorem step_hostRead {index draw : Nat} {rest : List Input} (h : s.inputs = .hostRead index draw :: rest) :
    step s = .next (s.quiet.taken.hostRead index draw) := by
  simp only [step, action, h, Action.run_ends]

/-- A legal answer answers its request. -/
theorem Req.answeredBy_of_legal {q : Req} {a : Input} (h : q.legalAnswer a = true) : q.answeredBy a = true := by
  cases q <;> cases a <;> simp_all [Req.legalAnswer, Req.answeredBy]

/-- One step against an environment that offers nothing because nothing is awaited. -/
theorem step_offer_none {env : Env} {k : Nat} (hr : s.req = none) :
    step { s with inputs := [env.offer k s] } = { s with touchIrq := false, inputs := [] : State }.proceed.run := by
  exact step_tick (s := { s with inputs := [env.offer k s] }) (rest := []) (by simp [Env.offer, hr]) hr

/-- One step against a fair environment that answers the outstanding request. -/
theorem step_offer_some {env : Env} (hf : env.fair) {k : Nat} {q : Req} (hr : s.req = some q) :
    step { s with inputs := [env.offer k s] } =
      { s with touchIrq := false, inputs := [env k q] : State }.proceed.run := by
  have ho : env.offer k s = env k q := by simp [Env.offer, hr]
  rw [ho]
  exact step_answer (s := { s with inputs := [env k q] }) (rest := []) rfl hr (Req.answeredBy_of_legal (hf k q))

/-- Everything a step that answers a next state can be. -/
theorem step_cases (h : step s = .next t) :
    (∃ rest, s.inputs = .hardwareReset :: rest ∧ t = s.quiet.taken.hardwareReset) ∨
      (∃ w rest, s.inputs = .hostWrite 0x00 w :: rest ∧ s.busy = true ∧ t = s.quiet.taken) ∨
      (∃ w rest e, s.inputs = .hostWrite 0x00 w :: rest ∧ s.busy = false ∧
        decodeCmd16 (field w 0 s.params.lit.hregW) = .error e ∧ t = s.quiet.taken.reject .errIllegalCmd) ∨
      (∃ w rest i, s.inputs = .hostWrite 0x00 w :: rest ∧ s.busy = false ∧
        decodeCmd16 (field w 0 s.params.lit.hregW) = .ok i ∧ exec i s.quiet.taken = .next t) ∨
      (∃ w rest, s.inputs = .hostWrite 0x01 w :: rest ∧ (s.st = .uninit ∨ s.st = .failed) ∧
        t = { s.quiet.taken with cfg := field w 0 s.params.lit.hregW }) ∨
      (∃ index w rest, s.inputs = .hostWrite index w :: rest ∧ index ≠ 0x00 ∧
        (index = 0x01 → hasIndex s.params.lit index = true → s.st ≠ .uninit ∧ s.st ≠ .failed) ∧ t = s.quiet.taken) ∨
      (∃ index draw rest, s.inputs = .hostRead index draw :: rest ∧ t = s.quiet.taken.hostRead index draw) ∨
      (∃ pin edge rest, s.inputs = .pinEdge pin edge :: rest ∧ t = s.quiet.taken.pinEdge pin edge) ∨
      (∃ rest, s.inputs = .lateAnswer :: rest ∧ t = s.quiet.taken) ∨
      (∃ rest, s.inputs = .tick :: rest ∧ s.req ≠ none ∧ t = s.quiet.taken) ∨
      (∃ rest, s.inputs = .tick :: rest ∧ s.req = none ∧ s.quiet.taken.proceed.run = .next t) ∨
      (∃ a rest, s.inputs = a :: rest ∧ (∀ q, s.req = some q → q.answeredBy a = false) ∧
        (s.req = none → s.lbl = .idle) ∧ t = s.quiet.taken) ∨
      ((∀ q, s.req = some q → ∀ a ∈ s.inputs.head?, q.answeredBy a = true) ∧ s.quiet.proceed.run = .next t) := by
  have offered : ∀ a rest, s.inputs = a :: rest → (s.quiet.offered a).run = .next t →
      (s.inputs = a :: rest ∧ (∀ q, s.req = some q → q.answeredBy a = false) ∧ (s.req = none → s.lbl = .idle) ∧
          t = s.quiet.taken) ∨
        ((∀ q, s.req = some q → ∀ a ∈ s.inputs.head?, q.answeredBy a = true) ∧ s.quiet.proceed.run = .next t) := by
    intro a rest hin ho
    unfold State.offered at ho
    split at ho
    case h_1 q hq =>
      have hq : s.req = some q := hq
      split at ho
      case isTrue ha => exact .inr ⟨by simp [hq, hin, ha], ho⟩
      case isFalse ha => cases ho; exact .inl ⟨hin, by simp [hq, ha], by simp [hq], rfl⟩
    case h_2 hq =>
      have hq : s.req = none := hq
      split at ho
      case isTrue hl => cases ho; exact .inl ⟨hin, by simp [hq], fun _ => hl, rfl⟩
      case isFalse => exact .inr ⟨by simp [hq], ho⟩
  unfold step action at h
  cases hin : s.inputs with
  | nil =>
    simp only [hin] at h
    iterate 12 apply Or.inr
    exact ⟨by simp, h⟩
  | cons a rest =>
    cases a <;> simp only [hin] at h
    case hardwareReset => cases h; simp
    case hostWrite index w =>
      unfold State.hostWrite at h
      have hb : s.quiet.taken.busy = s.busy := rfl
      have hc : s.quiet.taken.cfgWritable = s.cfgWritable := rfl
      have hp : s.quiet.taken.params = s.params := rfl
      rw [hb, hc, hp] at h
      by_cases h0 : index = 0x00
      · subst h0
        cases hbusy : s.busy
        · cases hd : decodeCmd16 (field w 0 s.params.lit.hregW) with
          | error e => simp [hbusy, hd, -field_zero] at h; simp [h, hd, -field_zero]
          | ok i => simp [hbusy, hd, -field_zero] at h; simp [h, hd, -field_zero]
        · simp [hbusy] at h
          simp [h]
      · have hw' : s.cfgWritable = true ↔ s.st = .uninit ∨ s.st = .failed := by simp [State.cfgWritable]
        rw [if_neg h0] at h
        by_cases h1 : index = 0x01 ∧ hasIndex s.params.lit index = true ∧ s.cfgWritable = true
        · obtain ⟨rfl, hi, hw⟩ := h1
          simp [hi, hw, -field_zero] at h
          simp [← h, hw'.mp hw, -field_zero]
        · simp [h1, -field_zero] at h
          rw [hw'] at h1
          iterate 5 apply Or.inr
          exact .inl ⟨index, w, rest, rfl, h0, fun e hi => not_or.mp fun hw => h1 ⟨e, hi, hw⟩, h.symm⟩
    case hostRead => cases h; simp
    case pinEdge => cases h; simp
    case lateAnswer => cases h; simp
    case tick =>
      by_cases hr : s.req = none
      · simp [hr] at h
        simp [hr, h]
      · have : s.req.isSome = true := by simpa [Option.isSome_iff_ne_none] using hr
        simp [this] at h
        simp [hr, ← h]
    all_goals
      rcases offered _ rest hin h with ⟨_, h2, h3, h4⟩ | h5
      · iterate 11 apply Or.inr
        exact .inl ⟨_, rest, rfl, h2, h3, h4⟩
      · rw [hin] at h5
        iterate 12 apply Or.inr
        exact h5

end Sys2Proof.Machine
end

