-- ==== Sys2Proof/Tests/Slice0.lean ====
section
/-! SUPPORT. Tests: well-formedness, decoding of words written out from the spec's encodings, one step of each
instruction against the spec's worked examples, and a witness for the hypotheses of every statement. -/

namespace Sys2Proof.Tests

open Sys2Proof.Machine

/-! ## Helpers -/

/-- The next state, if there is one. -/
def after (r : Result) : Option State :=
  match r with
  | .next t => some t
  | _ => none

/-- A session with CFG = 0x0000, just opened. -/
def session : State :=
  { State.reset with st := .operational, diag := { Diag.zero with blBitClear := true } }

/-- A session with the lines of R128 configured and claimed: CFG = 0x5455. -/
def wired : State := { session with cfg := 0x5455, rstClaimed := true, intClaimed := true }

/-- The session's machine at a label of a running command, awaiting nothing. -/
def at' (st : St) (lbl : Lbl) (op : BitVec 4) : State :=
  { session with st := st, lbl := lbl, curOp := op, ha := 1, seen := [Published.zero] }

/-- The machine inside the first INIT, at a label before the bootloader loop. -/
def boot (st : St) (lbl : Lbl) : State :=
  { State.reset with st := st, lbl := lbl, curOp := 1, seen := [Published.zero] }

/-- The same inside the bootloader loop, at poll `bi`. -/
def bootPoll (lbl : Lbl) (bi : Nat) : State :=
  { boot .awaitBootExit lbl with
    bi := bi, regs := { Published.zero with blPolls := BitVec.ofNat 4 bi }
    seen := [{ Published.zero with blPolls := BitVec.ofNat 4 bi }] }

/-- A state with its request outstanding and the environment's next move. -/
def asking (s : State) (q : Req) (a : Input) : State := { s with req := some q, inputs := [a] }

/-- The frame of R271's example. -/
def exampleFrame : List Byte :=
  [0x00, 0x00, 0x02, 0x01, 0x2C, 0x00, 0xC8, 0x40, 0x21, 0x00, 0x0A, 0x00, 0x14, 0x05]

/-- An environment that answers every request with success, reads with zeros. -/
def calm : Env := fun _ q =>
  match q with
  | .bus r => if r.read then .readAnswer true (List.replicate r.len.toNat 0x00) else .writeAnswer true
  | .delay _ => .delayDone
  | .claim _ _ => .claimAnswer true

/-- An environment that fails every claim. -/
def hostile : Env := fun _ _ => .claimAnswer false

theorem calm_fair : calm.fair := by
  intro k q
  cases q with
  | bus r => cases h : r.read <;> simp [calm, h, Req.legalAnswer, legalRead]
  | delay ms => rfl
  | claim pin dir => rfl

theorem session_valid : session.Valid :=
  ⟨rfl, by decide, by decide, by decide, nofun, by decide, by decide, by decide, by decide, by decide, by decide,
    by decide, by decide, by decide, by decide⟩

theorem reset_valid : State.reset.Valid :=
  ⟨rfl, by decide, by decide, by decide, nofun, by decide, by decide, by decide, by decide, by decide, by decide,
    by decide, by decide, by decide, by decide⟩

theorem wired_valid : wired.Valid :=
  ⟨rfl, by decide, by decide, by decide, nofun, by decide, by decide, by decide, by decide, by decide, by decide,
    by decide, by decide, by decide, by decide⟩

/-! ## WellFormed refuses -/

theorem test_wf_getCoords : (Instr.getCoords 16).wf = false ∧ (Instr.getCoords 15).wf = true := by decide
theorem test_wf_frameRd_short : (Instr.frameRd 12).wf = false ∧ (Instr.frameRd 13).wf = true := by decide
theorem test_wf_frameRd_long : (Instr.frameRd 15).wf = false ∧ (Instr.frameRd 14).wf = true := by decide

/-! ## Decoding: words written out bit by bit from R111, R112, R118 and R120 -/

theorem test_decode_init : decodeCmd16 0b0000000000000001 = .ok .init := by decide
theorem test_decode_readData : decodeCmd16 0b0000000000000010 = .ok .readData := by decide
theorem test_decode_getCoords : decodeCmd16 0b0000000010100011 = .ok (.getCoords 10) := by decide
theorem test_decode_enterSleep : decodeCmd16 0b0000000000000100 = .ok .enterSleep := by decide
theorem test_decode_exitSleep : decodeCmd16 0b0000000000000101 = .ok .exitSleep := by decide
theorem test_decode_close : decodeCmd16 0b0000000000000110 = .ok .close := by decide
theorem test_decode_softResetWr :
    decodeBusReq .shown false 0b001001000000000000000001 [0x01] = .ok .softResetWr := by decide
theorem test_decode_keyUnlockWr :
    decodeBusReq .shown false 0b001001000000000000001011
      [0x00, 0xFF, 0xA5, 0x00, 0x01, 0x02, 0x03, 0x04, 0x05, 0x06, 0x07] = .ok .keyUnlockWr := by decide
theorem test_decode_blStatusRd : decodeBusReq .shown false 0b101001000000000000010000 [] = .ok .blStatusRd :=
  by decide
theorem test_decode_frameRd14 : decodeBusReq .shown true 0b101001000000000000001110 [] = .ok (.frameRd 14) :=
  by decide
theorem test_decode_frameRd13 : decodeBusReq .shown true 0b101001000000000000001101 [] = .ok (.frameRd 13) :=
  by decide
theorem test_decode_hsRd : decodeBusReq .shown true 0b101001000000000000000001 [] = .ok .hsRd := by decide
theorem test_decode_hsWr : decodeBusReq .shown true 0b001001000000000000000001 [0x01] = .ok (.hsWr 0x01) := by decide
theorem test_decode_sleepWr :
    decodeBusReq .shown false 0b001001000000000000000010 [0x01, 0x08] = .ok .sleepWr := by decide
theorem test_decode_wakeWr :
    decodeBusReq .shown false 0b001001000000000000000010 [0x00, 0x08] = .ok .wakeWr := by decide

/-- Rejections by name (R114, R118). -/
theorem test_decode_rejects :
    decodeCmd16 0x0101 = .error .reservedBits ∧ decodeCmd16 0x0000 = .error .illegalOpcode ∧
    decodeCmd16 0x0007 = .error .illegalOpcode ∧ decodeCmd16 0x0012 = .error .argumentNotAllowed ∧
    decodeBusReq .shown false 0xA50001 [] = .error .wrongDevice ∧
    decodeBusReq .shown false 0xA40101 [] = .error .wrongRegister ∧
    decodeBusReq .shown false 0xA40002 [] = .error .wrongLength ∧
    decodeBusReq .shown false 0x240001 [] = .error .payloadSize ∧
    decodeBusReq .shown false 0x240002 [0x02, 0x08] = .error .wrongPayload ∧
    decodeBusBytes .shown false [0x24, 0x00, 0x02, 0x01] = .error .truncated := by decide

/-- A byte sequence: a header, most significant byte first, its payload, and the next header (R126). -/
theorem test_decode_bytes :
    decodeBusBytes .shown false [0x24, 0x00, 0x02, 0x01, 0x08, 0xA4] = .ok (.sleepWr, [0xA4]) := by decide

/-! ## The parameters are arguments (R10) -/

/-- With HS_MAX_ATTEMPTS = 1 the first failed attempt gives up. -/
theorem test_param_attempts :
    (after (step { asking (at' .poll .hsDly 2) (.delay 5) .delayDone with
        params := { Params.default with lit := { Literals.shown with hsMaxAttempts := 1 } } })).map
      (fun t => (t.lbl, t.diag.hsGaveUp)) = some (.plDec, true) := by decide

/-- With SR_WAIT_MS = 60 the soft reset waits 60 ms. -/
theorem test_param_wait :
    (after (step { boot .softReset .srWait with
        params := { Params.default with lit := { Literals.shown with srWaitMs := 60 } }, inputs := [.tick] })).map
      (fun t => t.trace) = some [.delay 60] := by decide

/-- With COUNT_MASK = 0x03 a status of 0x52 still counts 2, and 0x07 counts 0. -/
theorem test_param_mask :
    [0x52, 0x07].map (fun ts => (validCount { Literals.shown with countMask := 0x03 } ts).toNat) = [2, 0] := by decide

/-- With PIN_W = 7 and HREG_W = 18 the reset line can be pin 100, and INIT claims it. -/
theorem test_param_pinW :
    (after (step
      { State.reset with
        params := { Params.default with lit := { Literals.shown with pinW := 7, hregW := 18 } }
        cfg := cfgWord { Literals.shown with pinW := 7 } (some (100, true)) (some (99, false))
        st := .claim, lbl := .clRst, curOp := 1, inputs := [.tick] })).map
      (fun t => (t.cfg, t.trace)) = some (99 * 2048 + 100 * 16 + 7, [.gpioClaim 100 .out]) := by decide

/-- With HREG_W = 8 a coordinate's register shows its low byte, and CFG takes the low byte written. -/
theorem test_param_hregW :
    let narrow : State :=
      { State.reset with
        params := { Params.default with lit := { Literals.shown with hregW := 8 } }
        regs := { Published.zero with p0 := ⟨300, 200, 64⟩ } }
    (after (step { narrow with inputs := [.hostRead 0x06 0] })).map (fun t => t.trace) =
        some [.hostValue 0x06 0x2C] ∧
      (after (step { narrow with inputs := [.hostWrite 0x01 0x5455] })).map (fun t => t.cfg) = some 0x55 := by decide

/-- With HADDR_W = 4 there is no register 0x13: it reads 0. -/
theorem test_param_haddrW :
    (after (step
      { State.reset with
        params := { Params.default with lit := { Literals.shown with haddrW := 4 } }
        regs := { Published.zero with hsAttempts := 3 }, inputs := [.hostRead 0x13 0] })).map (fun t => t.trace) =
      some [.hostValue 0x13 0] := by decide

/-- With BREG_W = 16 a header has four bytes, two of them REG. -/
theorem test_param_bregW :
    let wide : Literals := { Literals.shown with bregW := 16, regBase := 0x0102 }
    (encode wide .hsRd).busBytes wide = some [0xA4, 0x01, 0x02, 0x01] ∧
      decodeBusBytes wide true [0xA4, 0x01, 0x02, 0x01] = .ok (.hsRd, []) := by decide

/-! ## Placing a table word -/

theorem test_fetch_exitSleep :
    (after (step (State.reset.withFetchWord 16 0x0005))).map (fun t => (t.st, t.result)) =
      some (.uninit, .errNoSession) := by decide
theorem test_fetch_keyUnlockWr :
    (after (step (State.reset.withFetchWord 24 0x24000B))).map (fun t => t.trace) =
      some [.bus { read := false, dev := 0x24, reg := 0x00, len := 0x0B, data := Literals.shown.keySeq }] := by decide
theorem test_fetch_wakeWr :
    (after (step (State.reset.withFetchWord 24 0x240002))).map (fun t => t.trace) =
      some [.bus { read := false, dev := 0x24, reg := 0x00, len := 0x02, data := [0x00, 0x08] }] := by decide

/-! ## The codec and the words: the spec's corner cases and examples (R128, R170, R172, R174, R200) -/

theorem test_be16 : be16 0x01 0x2C = 300 ∧ be16 0x00 0xFF = 255 ∧ be16 0xFF 0x00 = 65280 ∧ be16 0xFF 0xFF = 65535 := by
  decide
theorem test_validCount :
    [0x00, 0x01, 0x02, 0x03, 0x0F, 0x52, 0xF1, 0x10].map (fun ts => (validCount .shown ts).toNat) =
      [0, 1, 2, 0, 0, 2, 1, 0] := by decide
theorem test_blBusy :
    [0x10, 0xEF, 0xFF, 0x00].map (fun b => blBusy .shown (readBuffer 16 [0x00, b])) =
      [true, false, true, false] := by decide
theorem test_flip : [0x00, 0x80, 0x7F, 0xFF, 0x81].map (flipHsBit .shown) = [0x80, 0x00, 0xFF, 0x7F, 0x01] := by decide
theorem test_cfgWord : cfgWord .shown (some (5, false)) (some (21, false)) = 0x5455 := by decide

/-! ## One step of each instruction, against the spec's examples -/

/-- With a reset line configured INIT's first interaction is its claim (R231). -/
theorem test_init_claims :
    (after (exec .init { State.reset with cfg := 0x5455 })).map (fun t => (t.st, t.lbl)) = some (.claim, .clRst) := by
  decide

/-- INIT in a session is rejected (R115). -/
theorem test_init_active : (after (exec .init session)).map (fun t => t.result) = some .errSessionActive := by decide

/-- READ_DATA before INIT is rejected (R115). -/
theorem test_readData_noSession :
    (after (exec .readData State.reset)).map (fun t => (t.result, t.st)) = some (.errNoSession, .uninit) := by decide

/-- R271's example: COUNT = 2, P0 = (300, 200, 64), P1 = (10, 20, 5). -/
theorem test_readData_decode :
    decodedRegs .shown (readBuffer 14 exampleFrame) Published.zero =
      { Published.zero with count := 2, p0 := ⟨300, 200, 64⟩, p1 := ⟨10, 20, 5⟩ } := by decide

/-- R272's example under PRESERVE: both slots written, COUNT, OCOUNT and ANY zero. -/
theorem test_getCoords_preserve :
    copiedRegs .preserve 2 { Published.zero with count := 2, p0 := ⟨300, 200, 64⟩, p1 := ⟨10, 20, 5⟩ } =
      { Published.zero with
        p0 := ⟨300, 200, 64⟩, p1 := ⟨10, 20, 5⟩, out0 := ⟨300, 200, 64⟩, out1 := ⟨10, 20, 5⟩ } := by decide

/-- R272's example under FIX, with max_count = 1: slot 0 only, OCOUNT = 1, ANY = 1, COUNT = 2. -/
theorem test_getCoords_fix :
    copiedRegs .fix 1 { Published.zero with count := 2, p0 := ⟨300, 200, 64⟩, p1 := ⟨10, 20, 5⟩ } =
      { Published.zero with
        count := 2, p0 := ⟨300, 200, 64⟩, p1 := ⟨10, 20, 5⟩, out0 := ⟨300, 200, 64⟩, ocount := 1, any := true } := by
  decide

/-- ENTER_SLEEP's write is next and its DIAG bit is cleared (R273). -/
theorem test_enterSleep :
    (after (exec .enterSleep { session with diag := { session.diag with pwrWrFail := true } })).map
      (fun t => (t.lbl, t.diag.pwrWrFail)) = some (.pwWr, false) := by decide

/-- EXIT_SLEEP is accepted while SLEEPING = 0 (R277). -/
theorem test_exitSleep : (after (exec .exitSleep session)).map (fun t => (t.st, t.curOp)) = some (.power, 5) :=
  by decide

/-- With both lines claimed CLOSE releases the reset line first (R275). -/
theorem test_close_wired : (after (exec .close wired)).map (fun t => (t.st, t.lbl)) = some (.closing, .csRst) :=
  by decide

/-- A failed soft-reset write sets its flag, and the wait comes all the same (R234). -/
theorem test_softResetWr_fails :
    (after (exec .softResetWr
      (asking (boot .softReset .srWr) (.bus (memWrite .shown [0x01])) (.writeAnswer false)))).map
        (fun t => (t.lbl, t.diag.srWrFail)) = some (.srWait, true) := by decide

/-- The key's 11 bytes, in the order given (R235). -/
theorem test_keyUnlockWr :
    (after (exec .keyUnlockWr (boot .keyUnlock .kyWr))).map (fun t => t.req) =
      some (some (.bus
        { read := false, dev := 0x24, reg := 0x00, len := 11
          data := [0x00, 0xFF, 0xA5, 0x00, 0x01, 0x02, 0x03, 0x04, 0x05, 0x06, 0x07] })) := by decide

/-- A failed read of one byte ends the bootloader loop: byte 1 stays zero (R162, R236). -/
theorem test_blStatusRd_short :
    (after (exec .blStatusRd
      (asking (bootPoll .blRd 1) (.bus (memRead .shown 16)) (.readAnswer false [0x10])))).map
        (fun t => (t.lbl, t.diag.blBitClear, t.diag.blRdFail)) = some (.eoDly, true, true) := by decide

/-- The tenth busy status ends the loop with BL_TIMEOUT (R236). -/
theorem test_blStatusRd_tenth :
    (after (exec .blStatusRd
      (asking (bootPoll .blRd 10) (.bus (memRead .shown 16))
        (.readAnswer true (0x00 :: 0x10 :: List.replicate 14 0x00))))).map
        (fun t => (t.lbl, t.diag.blTimeout)) = some (.eoDly, true) := by decide

/-- R161's example: the response leaves FRAME equal to its bytes. -/
theorem test_frameRd_example :
    (after (exec (.frameRd 14)
      (asking (at' .poll .plRd 2) (.bus (memRead .shown 14))
        (.readAnswer true [0x00, 0x00, 0x01, 0x01, 0x2C, 0x00, 0xC8, 0x40, 0, 0, 0, 0, 0, 0])))).map
        (fun t => (t.lbl, t.frame.getD 3 0xEE, t.frame.getD 4 0xEE, t.frame.getD 7 0xEE)) =
      some (.hsRd, 0x01, 0x2C, 0x40) := by decide

/-- A short read fills the front only, and the handshake follows all the same (R83, R270). -/
theorem test_frameRd_short :
    (after (exec (.frameRd 14)
      (asking (at' .poll .plRd 2) (.bus (memRead .shown 14)) (.readAnswer false [0x00, 0x00, 0x01])))).map
        (fun t => (t.lbl, t.frame.getD 2 0xEE, t.frame.getD 3 0xEE, t.diag.frameRdFail)) =
      some (.hsRd, 0x01, 0x00, true) := by decide

/-- R201's example: HSB = 0x5A. -/
theorem test_hsRd_example :
    (after (exec .hsRd (asking (at' .poll .hsRd 2) (.bus (memRead .shown 1)) (.readAnswer true [0x5A])))).map
        (fun t => (t.lbl, t.hsb)) = some (.hsWr, 0x5A) := by decide

/-- A failed handshake read is followed by the delay, with no write (R204). -/
theorem test_hsRd_fails :
    (after (exec .hsRd (asking (at' .poll .hsRd 2) (.bus (memRead .shown 1)) (.readAnswer false [])))).map
        (fun t => (t.lbl, t.hsb)) = some (.hsDly, 0x00) := by decide

/-- R202's example: HSB = 0x5A gives the payload 0xDA. -/
theorem test_hsWr_example :
    (after (exec (.hsWr 0xDA) { at' .poll .hsWr 2 with hsb := 0x5A })).map (fun t => t.req) =
      some (some (.bus { read := false, dev := 0x24, reg := 0x00, len := 1, data := [0xDA] })) := by decide

/-- Away from its label a bus transaction is refused by name. -/
theorem test_hsWr_offSequence : exec (.hsWr 0xDA) session = .refused .offSequence := by rfl

/-- A failed SLEEP_WR under OPTIMISTIC: SLEEPING = 1 and ERR_BUS (R273). -/
theorem test_sleepWr_fails :
    (after (exec .sleepWr (asking (at' .power .pwWr 4) (.bus (memWrite .shown [0x01, 0x08])) (.writeAnswer false)))).map
        (fun t => (t.sleeping, t.result, t.st)) = some (true, .errBus, .operational) := by decide

/-- A failed WAKE_WR under ON_SUCCESS leaves SLEEPING (R274). -/
theorem test_wakeWr_fails :
    (after (exec .wakeWr
      (asking
        { at' .power .pwWr 5 with
          sleeping := true, params := { Params.default with sleepModeUpdate := .onSuccess } }
        (.bus (memWrite .shown [0x00, 0x08])) (.writeAnswer false)))).map
        (fun t => (t.sleeping, t.result)) = some (true, .errBus) := by decide

/-- CLOSE's example: pin 5 is released (R275). -/
theorem test_close_release :
    (after (step { wired with st := .closing, lbl := .csRst, curOp := 6, inputs := [.tick] })).map
      (fun t => (t.lbl, t.trace)) = some (.csInt, [.gpioRelease 5]) := by decide

/-! ## Witnesses: for each statement with hypotheses, a state and operands that meet them all -/

/-- The machine inside a poll, at its frame read, awaiting nothing. -/
def polling : State := at' .poll .plRd 2

theorem polling_valid : polling.Valid :=
  ⟨rfl, by decide, by decide, by decide, nofun, by decide, by decide, by decide, by decide, by decide, by decide,
    by decide, by decide, by decide, by decide⟩

/-- A poll whose frame read is outstanding. -/
def reading : State := { polling with req := some (.bus (memRead .shown 14)) }

theorem reading_valid : reading.Valid :=
  ⟨rfl, by decide, by decide, by decide, by intro q h; cases h; rfl, by decide, by decide, by decide, by decide,
    by decide, by decide, by decide, by decide, by decide, by decide⟩

/-- At HS_RD of a poll, awaiting nothing. -/
def shaking : State := at' .poll .hsRd 2

theorem shaking_valid : shaking.Valid :=
  ⟨rfl, by decide, by decide, by decide, nofun, by decide, by decide, by decide, by decide, by decide, by decide,
    by decide, by decide, by decide, by decide⟩

/-- The session's CLOSE at its last step. -/
def closing : State :=
  { State.reset with st := .closing, lbl := .done, curOp := 6, seen := [Published.zero, Published.zero] }

theorem closing_valid : closing.Valid :=
  ⟨rfl, by decide, by decide, by decide, nofun, by decide, by decide, by decide, by decide, by decide, by decide,
    by decide, by decide, by decide, by decide⟩

/-- The inputs of a state do not matter to its validity. -/
theorem valid_inputs {s : State} (l : List Input) (h : s.Valid) : ({ s with inputs := l } : State).Valid :=
  ⟨h.1, h.2, h.3, h.4, h.5, h.6, h.7, h.8, h.9, h.10, h.11, h.12, h.13, h.14, h.15⟩

theorem witness_HardwareResetSetsEveryField :
    (asking polling (.bus (memRead .shown 14)) .hardwareReset).inputs = .hardwareReset :: [] ∧
      session.lbl = .idle ∧ session.inputs = [] := by decide

theorem witness_HostReadMap :
    ({ session with inputs := [.hostRead 0x22 0] } : State).inputs = .hostRead (HostReg.blbuf 7).index 0 :: [] ∧
      ({ session with inputs := [.hostRead 0x00 0] } : State).inputs = .hostRead HostReg.cmd.index 0 :: [] ∧
      session.params.lit.haddrW = 8 ∧ session.params.lit.hregW = 16 ∧ session.cfg < 2 ^ 16 ∧
      session.busy = false ∧ polling.busy = true := by decide

theorem witness_ReservedIndices :
    0x23 ≤ 0x23 ∧ 0x23 ≤ 0xFF ∧ 0xFF ≤ 0xFF ∧ 0x02 ≤ 0x02 ∧
      ({ session with inputs := [.hostRead 0x23 0] } : State).inputs = .hostRead 0x23 0 :: [] ∧
      ({ session with inputs := [.hostWrite 0x02 7] } : State).inputs = .hostWrite 0x02 7 :: [] := by decide

theorem witness_TornReads :
    ({ polling with inputs := [.hostRead 0x05 0] } : State).Valid ∧ polling.busy = true ∧
      Published.zero ∈ polling.seen := ⟨valid_inputs _ polling_valid, by decide, by decide⟩

/-- The four clauses: a command that starts, one that goes on, and one that ends. -/
theorem witness_TornReadHistory :
    (∃ s t : State, s.Valid ∧ step s = .next t ∧ s.busy = false ∧ t.busy = true) ∧
      (∃ s t : State, s.Valid ∧ step s = .next t ∧ s.busy = true ∧ t.busy = true ∧ t.regs ≠ s.regs) ∧
      (∃ s t : State, s.Valid ∧ step s = .next t ∧ t.busy = false) :=
  ⟨⟨{ session with inputs := [.hostWrite 0x00 0x0002] }, _, valid_inputs _ session_valid, rfl, by decide, by decide⟩,
    ⟨{ at' .poll .plDec 2 with frame := readBuffer 14 exampleFrame, inputs := [.tick] }, _,
      ⟨rfl, by decide, by decide, by decide, nofun, by decide, by decide, by decide, by decide, by decide,
        by decide, by decide, by decide, by decide, by decide⟩, rfl, by decide, by decide, by decide⟩,
    ⟨{ closing with inputs := [.tick] }, _, valid_inputs _ closing_valid, rfl, by decide⟩⟩

theorem witness_CfgWindow :
    (∃ s t : State, s.inputs = .hostWrite 0x01 0x5455 :: [] ∧ s.st = .uninit ∧ step s = .next t ∧ t.cfg ≠ s.cfg) ∧
      (∃ s t : State, s.inputs = .hardwareReset :: [] ∧ step s = .next t ∧ t.cfg ≠ s.cfg) ∧
      (∃ s : State, s.params.lit.haddrW = 8 ∧ s.params.lit.hregW = 16 ∧ s.inputs = .hostWrite 0x01 0x5455 :: [] ∧
        s.st = .operational) :=
  ⟨⟨{ State.reset with inputs := [.hostWrite 0x01 0x5455] }, _, rfl, rfl, rfl, by decide⟩,
    ⟨{ wired with inputs := [.hardwareReset] }, _, rfl, rfl, by decide⟩,
    ⟨{ session with inputs := [.hostWrite 0x01 0x5455] }, rfl, rfl, rfl, rfl⟩⟩

theorem witness_ParametersFixed : ∃ s t : State, step s = .next t :=
  ⟨{ State.reset with inputs := [.hostWrite 0x00 0x0001] }, _, rfl⟩

theorem witness_BusyCommandDropped :
    ({ polling with inputs := [.hostWrite 0x00 0x0002] } : State).inputs = .hostWrite 0x00 0x0002 :: [] ∧
      ¬ (polling.st = .uninit ∨ polling.st = .operational ∨ polling.st = .failed) := by decide

/-- Each ground of illegality at the edge of its range. -/
theorem witness_IllegalWordRejected :
    ({ session with inputs := [.hostWrite 0x00 0x0007] } : State).inputs = .hostWrite 0x00 0x0007 :: [] ∧
      session.params.lit.hregW = 16 ∧ illegalWord 0x0007 = true ∧ illegalWord 0x0000 = true ∧
      illegalWord 0xFF01 = true ∧ illegalWord 0x0012 = true ∧
      illegalWord 0x0006 = false ∧ illegalWord 0x00F3 = false ∧
      (session.st = .uninit ∨ session.st = .operational ∨ session.st = .failed) := by decide

theorem witness_SessionChecks :
    ({ session with inputs := [.hostWrite 0x00 0x0001] } : State).inputs = .hostWrite 0x00 0x0001 :: [] ∧
      session.params.lit.hregW = 16 ∧ illegalWord 0x0001 = false ∧ session.st = .operational ∧
      ({ State.reset with inputs := [.hostWrite 0x00 0x0006] } : State).inputs = .hostWrite 0x00 0x0006 :: [] ∧
      illegalWord 0x0006 = false ∧ 0x0006 ≠ 0x0001 ∧ State.reset.st = .uninit := by decide

/-- A step that changes RESULT, and the end of a CLOSE, of an INIT, of a READ_DATA and of an ENTER_SLEEP. -/
theorem witness_CommandEndCodes :
    (∃ s t : State, step s = .next t ∧ t.result ≠ s.result) ∧
      (∀ op ∈ [(1 : BitVec 4), 2, 4, 6], ∃ s t : State, s.Valid ∧ s.curOp = op ∧ step s = .next t ∧ s.busy = true ∧
        t.busy = false ∧ ∀ rest, s.inputs ≠ .hardwareReset :: rest) := by
  refine ⟨⟨{ State.reset with inputs := [.hostWrite 0x00 0x0002] }, _, rfl, by decide⟩, ?_⟩
  simp only [List.mem_cons, List.not_mem_nil, or_false, forall_eq_or_imp, forall_eq]
  refine ⟨⟨{ boot .enterOperational .done with diag := session.diag, inputs := [.tick] }, _, ?_, rfl, rfl, by decide,
      by decide, nofun⟩,
    ⟨{ at' .poll .done 2 with inputs := [.tick] }, _, ?_, rfl, rfl, by decide, by decide, nofun⟩,
    ⟨asking (at' .power .pwWr 4) (.bus (memWrite .shown [0x01, 0x08])) (.writeAnswer false), _, ?_, rfl, rfl, by decide,
      by decide, nofun⟩,
    ⟨{ closing with inputs := [.tick] }, _, valid_inputs _ closing_valid, rfl, rfl, by decide, by decide, nofun⟩⟩
  · exact ⟨rfl, by decide, by decide, by decide, nofun, by decide, by decide, by decide, by decide, by decide,
    by decide, by decide, by decide, by decide, by decide⟩
  · exact ⟨rfl, by decide, by decide, by decide, nofun, by decide, by decide, by decide, by decide, by decide,
    by decide, by decide, by decide, by decide, by decide⟩
  · exact ⟨rfl, by decide, by decide, by decide, by intro q h; cases h; rfl, by decide, by decide, by decide,
    by decide, by decide, by decide, by decide, by decide, by decide, by decide⟩

theorem witness_DecodeEncode :
    (Instr.getCoords 15).wf = true ∧ (Instr.frameRd 13).wf = true ∧ (Instr.hsWr 0x01).wf = true := by decide

theorem witness_EncodeDecode :
    decode .shown false (.cmd16 0x00F3) = .ok (.getCoords 15) ∧
      decode .shown true (.busreq 0x240001 [0x01]) = .ok (.hsWr 0x01) ∧
      decode .shown false (.busreq 0x240001 [0x01]) = .ok .softResetWr := by decide

theorem witness_BusBytesRoundTrip :
    Instr.sleepWr.wf = true ∧ (encode .shown .sleepWr).busBytes .shown = some [0x24, 0x00, 0x02, 0x01, 0x08] := by
  decide

/-- Both lines none, and both configured at the last pin. -/
theorem witness_HostProgramWords :
    State.reset.params.lit.pinW = 6 ∧ State.reset.cfg = cfgWord .shown none none ∧
      ({ State.reset with cfg := 0xFFFF } : State).cfg = cfgWord .shown (some (63, true)) (some (63, true)) := by decide

theorem witness_StepRunsHostCommand :
    ({ session with inputs := [.hostWrite 0x00 0x00F3] } : State).inputs = .hostWrite 0x00 0x00F3 :: [] ∧
      session.busy = false ∧ session.params.lit.hregW = 16 ∧ decodeCmd16 0x00F3 = .ok (.getCoords 15) ∧
      (Instr.getCoords 15).wf = true := by decide

theorem witness_StepRunsBusTransaction :
    fetchBus polling = some (.frameRd 14) ∧ polling.inputs = [] ∧ polling.req = none ∧
      ({ polling with inputs := [.tick] } : State).inputs = .tick :: [] ∧
      (asking polling (.bus (memRead .shown 14)) (.readAnswer false [])).inputs = .readAnswer false [] :: [] ∧
      (Req.bus (memRead .shown 14)).answeredBy (.readAnswer false []) = true := by decide

theorem witness_FetchIsDecoded : polling.Valid ∧ fetchBus polling = some (.frameRd 14) := ⟨polling_valid, by decide⟩

theorem witness_InitStarts :
    State.reset.st = .uninit ∧ ({ State.reset with st := .failed } : State).st = .failed ∧
      State.reset.params.explicitBlExit = false := by decide

theorem witness_ExplicitExitRefused :
    ({ State.reset with params := { Params.default with explicitBlExit := true } } : State).params.explicitBlExit =
        true ∧
      State.reset.st = .uninit := by decide

theorem witness_SessionCommandsStart : session.st = .operational ∧ 15 ≤ 15 := by decide

/-- The three clauses: both lines claimed, the interrupt line alone, none. -/
theorem witness_CloseStarts :
    wired.st = .operational ∧ wired.rstClaimed = true ∧
      ({ wired with rstClaimed := false } : State).intClaimed = true ∧ session.rstClaimed = false := by decide

theorem witness_TransactionsIssued :
    (boot .softReset .srWr).params.lit = .shown ∧ polling.params.lit = .shown ∧
      (boot .softReset .srWr).req = none ∧ (boot .softReset .srWr).lbl = .srWr ∧ (boot .keyUnlock .kyWr).lbl = .kyWr ∧
      (bootPoll .blRd 1).lbl = .blRd ∧ (at' .enterOperational .eoRd 1).lbl = .eoRd ∧
      polling.lbl = .plRd ∧ polling.params.frameReadLen = .fourteen ∧
      ({ polling with params := { Params.default with frameReadLen := .thirteen } } : State).params.frameReadLen =
        .thirteen ∧
      shaking.lbl = .hsRd ∧ (at' .poll .hsWr 3).lbl = .hsWr ∧ (at' .power .pwWr 4).curOp = 4 ∧
      (at' .power .pwWr 5).curOp = 5 ∧ (at' .power .pwWr 5).lbl = .pwWr ∧ (at' .power .pwWr 5).req = none := by decide

theorem witness_BringUpWritesAnswered :
    (boot .softReset .srWr).params.lit = .shown ∧
      (asking (boot .softReset .srWr) (.bus (memWrite .shown [0x01])) (.writeAnswer true)).inputs =
        .writeAnswer true :: [] ∧
      (asking (boot .softReset .srWr) (.bus (memWrite .shown [0x01])) (.writeAnswer true)).req =
        some (.bus (memWrite .shown [0x01])) ∧
      (asking (boot .keyUnlock .kyWr) (.bus (memWrite .shown Literals.shown.keySeq)) (.writeAnswer true)).req =
        some (.bus (memWrite .shown [0x00, 0xFF, 0xA5, 0x00, 0x01, 0x02, 0x03, 0x04, 0x05, 0x06, 0x07])) ∧
      (boot .keyUnlock .kyWr).lbl = .kyWr := by decide

/-- The three clauses: bit 4 clear, set at poll 10, set at poll 9; and the shortest and the longest answer. -/
theorem witness_BootStatusAnswered :
    (bootPoll .blRd 10).params.lit = .shown ∧ (bootPoll .blRd 10).lbl = .blRd ∧
      (bootPoll .blRd 10).blbuf = List.replicate 16 0x00 ∧
      (asking (bootPoll .blRd 10) (.bus (memRead .shown 16)) (.readAnswer false [])).req =
        some (.bus (memRead .shown 16)) ∧
      (asking (bootPoll .blRd 10) (.bus (memRead .shown 16)) (.readAnswer false [])).inputs =
        .readAnswer false [] :: [] ∧
      (List.replicate 16 (0xFF : Byte)).length = 16 ∧
      (([] : List Byte).getD 1 0x00).toNat / 16 % 2 = 0 ∧
      ((List.replicate 16 (0xFF : Byte)).getD 1 0x00).toNat / 16 % 2 = 1 ∧ (bootPoll .blRd 10).bi = 10 ∧
      (bootPoll .blRd 9).bi < 10 := by decide

theorem witness_FrameReadAnswered :
    reading.params.lit = .shown ∧ 14 = polling.params.frameReadLen.toNat ∧
      reading.req = some (.bus (memRead .shown 14)) ∧ exampleFrame.length = 14 ∧
      ({ reading with inputs := [.readAnswer true exampleFrame] } : State).inputs =
        .readAnswer true exampleFrame :: [] ∧
      reading.frame = List.replicate 14 0x00 ∧ reading.lbl = .plRd ∧ (at' .enterOperational .eoRd 1).lbl = .eoRd ∧
      13 = FrameReadLen.thirteen.toNat := by decide

theorem witness_HandshakeReadAnswered :
    shaking.params.lit = .shown ∧ shaking.lbl = .hsRd ∧ shaking.hsb = 0x00 ∧ ([0x5A] : List Byte).length = 1 ∧
      (asking shaking (.bus (memRead .shown 1)) (.readAnswer true [0x5A])).req = some (.bus (memRead .shown 1)) ∧
      (asking shaking (.bus (memRead .shown 1)) (.readAnswer true [0x5A])).inputs =
        .readAnswer true [0x5A] :: [] := by decide

theorem witness_HandshakeWriteAnswered :
    (at' .poll .hsWr 2).params.lit = .shown ∧
      (asking (at' .poll .hsWr 2) (.bus (memWrite .shown [0x80])) (.writeAnswer true)).req =
        some (.bus (memWrite .shown [(at' .poll .hsWr 2).hsb ^^^ 0x80])) ∧
      (at' .poll .hsWr 2).lbl = .hsWr ∧ (at' .poll .hsWr 2).ha ≤ 20 ∧
      (asking (at' .poll .hsWr 2) (.bus (memWrite .shown [0x80])) (.writeAnswer true)).inputs =
        .writeAnswer true :: [] ∧
      (asking (at' .poll .hsWr 2) (.bus (memWrite .shown [0x80])) (.writeAnswer false)).inputs =
        .writeAnswer false :: [] := by
  decide

theorem witness_PowerWritesAnswered :
    (at' .power .pwWr 4).params.lit = .shown ∧
      (at' .power .pwWr 4).lbl = .pwWr ∧ (at' .power .pwWr 4).curOp = 4 ∧ (at' .power .pwWr 5).curOp = 5 ∧
      (asking (at' .power .pwWr 4) (.bus (memWrite .shown [0x01, 0x08])) (.writeAnswer false)).req =
        some (.bus (memWrite .shown [0x01, 0x08])) ∧
      (asking (at' .power .pwWr 5) (.bus (memWrite .shown [0x00, 0x08])) (.writeAnswer true)).req =
        some (.bus (memWrite .shown [0x00, 0x08])) := by decide

theorem witness_SuspendedUntilAnswered :
    reading.Valid ∧ reading.req = some (.bus (memRead .shown 14)) ∧ reading.inputs = [] ∧
      Input.delayDone.isAnswer = true ∧ (Req.bus (memRead .shown 14)).answeredBy .delayDone = false ∧
      session.lbl = .idle ∧ session.req = none := ⟨reading_valid, by decide⟩

/-- The reset machine under EXPLICIT_BL_EXIT = true, INIT being written. -/
def explicitExit : State :=
  { State.reset with
    params := { Params.default with explicitBlExit := true }, inputs := [.hostWrite 0x00 0x0001] }

theorem explicitExit_valid : explicitExit.Valid :=
  ⟨rfl, by decide, by decide, by decide, nofun, by decide, by decide, by decide, by decide, by decide, by decide,
    by decide, by decide, by decide, by decide⟩

/-- Too many bytes, and too few with ok; and a step that is refused for each of the two reasons. -/
theorem witness_NamedRefusals :
    ({ reading with inputs := [.readAnswer true []] } : State).Valid ∧ (memRead .shown 14).read = true ∧
      (memRead .shown 14).len.toNat < (List.replicate 15 (0x00 : Byte)).length ∧
        ([] : List Byte).length < (memRead .shown 14).len.toNat ∧
      step { reading with inputs := [.readAnswer true []] } = .refused .busContract ∧
      explicitExit.Valid ∧ explicitExit.params.explicitBlExit = true ∧
      explicitExit.inputs = .hostWrite 0x00 0x0001 :: [] ∧ step explicitExit = .refused .explicitBlExitUnmodelled :=
  ⟨valid_inputs _ reading_valid, by decide, by decide, by decide, rfl, explicitExit_valid, by decide, by decide, rfl⟩

theorem witness_OffSequenceRefused :
    encode .shown (.hsWr 0xDA) = .busreq 0x240001 [0xDA] ∧ fetchBus session ≠ some (.hsWr 0xDA) ∧
      fetchBus (at' .poll .hsWr 2) ≠ some (.hsWr 0xDA) := by decide

theorem witness_DelaysRequested :
    (at' .poll .hsDly 2).params.lit = .shown ∧
      ({ at' .poll .hsDly 2 with inputs := [.tick] } : State).inputs = .tick :: [] ∧ (at' .poll .hsDly 2).req = none ∧
      (at' .poll .hsDly 2).lbl = .hsDly ∧ (boot .resetting .rsHold1).lbl = .rsHold1 ∧
      (boot .softReset .srWait).lbl = .srWait ∧ (boot .keyUnlock .kyWait).lbl = .kyWait ∧
      (bootPoll .blDly 1).lbl = .blDly := by decide

theorem witness_BringUpWaitsAnswered :
    (boot .keyUnlock .kyWait).params.lit = .shown ∧
      (asking (boot .keyUnlock .kyWait) (.delay 88) .delayDone).req = some (.delay 88) ∧
      (asking (boot .keyUnlock .kyWait) (.delay 88) .delayDone).inputs = .delayDone :: [] ∧
      (asking (boot .keyUnlock .kyWait) (.delay 88) .delayDone).lbl = .kyWait ∧
      (asking (boot .resetting .rsHold2) (.delay 10) .delayDone).lbl = .rsHold2 ∧
      (asking (boot .softReset .srWait) (.delay 50) .delayDone).lbl = .srWait ∧
      (asking (bootPoll .blDly 10) (.delay 20) .delayDone).lbl = .blDly ∧
      (asking (boot .enterOperational .eoDly) (.delay 20) .delayDone).lbl = .eoDly := by decide

/-- The two clauses at their edge: attempts 20 and 19. -/
theorem witness_HandshakeDelayAnswered :
    (at' .poll .hsDly 2).params.lit = .shown ∧
      (asking (at' .poll .hsDly 2) (.delay 5) .delayDone).lbl = .hsDly ∧
      (asking (at' .poll .hsDly 2) (.delay 5) .delayDone).req = some (.delay 5) ∧
      (asking (at' .poll .hsDly 2) (.delay 5) .delayDone).inputs = .delayDone :: [] ∧
      ({ at' .poll .hsDly 2 with ha := 20 } : State).ha = 20 ∧
      ({ at' .poll .hsDly 2 with ha := 19 } : State).ha < 20 := by decide

theorem witness_ResetPulse :
    ({ boot .resetting .rsAssert with inputs := [.tick] } : State).inputs = .tick :: [] ∧
      (boot .resetting .rsAssert).params.lit.pinW = 6 ∧ (boot .resetting .rsAssert).req = none ∧
      (boot .resetting .rsAssert).lbl = .rsAssert ∧
      (boot .resetting .rsRelease).lbl = .rsRelease := by decide

theorem witness_ClaimsMade :
    ({ boot .claim .clRst with cfg := 0x5455, inputs := [.tick] } : State).inputs = .tick :: [] ∧
      (boot .claim .clRst).params.lit.pinW = 6 ∧ (boot .claim .clRst).req = none ∧ (boot .claim .clRst).lbl = .clRst ∧
      (boot .claim .clInt).lbl = .clInt ∧
      Nat.testBit 0x5455 0 = true ∧ Nat.testBit 0x5455 2 = true ∧ Nat.testBit 0x0051 2 = false ∧
      Nat.testBit 0x5404 0 = false ∧
      (asking { boot .claim .clRst with cfg := 0x5455 } (.claim 5 .out) (.claimAnswer true)).req =
        some (.claim (field 0x5455 4 6) .out) ∧
      (asking { boot .claim .clInt with cfg := 0x5455 } (.claim 21 (.inEdge .falling)) (.claimAnswer true)).req =
        some (.claim (field 0x5455 10 6) (.inEdge .falling)) := by decide

theorem witness_CloseReleases :
    ({ wired with st := .closing, lbl := .csRst, inputs := [.tick] } : State).inputs = .tick :: [] ∧ wired.req = none ∧
      wired.params.lit.pinW = 6 ∧
      ({ wired with st := .closing, lbl := .csRst } : State).lbl = .csRst ∧
      ({ wired with st := .closing, lbl := .csInt } : State).lbl = .csInt := by decide

theorem witness_PollDecodes :
    (at' .poll .plDec 3).params.lit = .shown ∧
      ({ at' .poll .plDec 3 with inputs := [.tick] } : State).inputs = .tick :: [] ∧ (at' .poll .plDec 3).req = none ∧
      (at' .poll .plDec 3).lbl = .plDec ∧ (at' .poll .plDec 3).curOp = 3 ∧ (at' .poll .plDec 2).curOp ≠ 3 := by decide

theorem witness_CommandsEnd :
    ({ closing with inputs := [.tick] } : State).inputs = .tick :: [] ∧ closing.req = none ∧ closing.lbl = .done := by
  decide

theorem witness_TouchIrqOnActiveEdge :
    ({ wired with inputs := [.pinEdge 21 .falling] } : State).inputs = .pinEdge 21 .falling :: [] ∧
      wired.intClaimed = true ∧ wired.params.lit.pinW = 6 ∧ 21 = field wired.cfg 10 6 ∧
      ∃ t, step { wired with inputs := [.pinEdge 21 .falling] } = .next t ∧ t.touchIrq = true :=
  ⟨rfl, rfl, rfl, by decide, _, rfl, by decide⟩

/-- Two frames that differ in every unused place. -/
theorem witness_UnusedFrameBytes :
    ((readBuffer 14 [0x00, 0x00, 0x02]).getD 2 0).extractLsb' 0 4 =
        ((readBuffer 14 [0xFF, 0xFF, 0xF2, 0, 0, 0, 0, 0, 0xFF]).getD 2 0).extractLsb' 0 4 ∧
      (readBuffer 14 [0x00, 0x00, 0x02]).getD 13 0 =
        (readBuffer 14 [0xFF, 0xFF, 0xF2, 0, 0, 0, 0, 0, 0xFF]).getD 13 0 := by decide

theorem witness_StepKeepsValid :
    ∃ s t : State, s.Valid ∧ step s = .next t ∧ t.req ≠ none :=
  ⟨{ polling with inputs := [.tick] }, _, valid_inputs _ polling_valid, rfl, by decide⟩

theorem witness_StateTransitions :
    (∃ s t : State, s.Valid ∧ step s = .next t ∧ s.st ≠ t.st ∧ t.st = .poll) ∧
      (∃ s t : State, s.Valid ∧ step s = .next t ∧ s.st ≠ t.st ∧ s.inputs = [.hardwareReset]) :=
  ⟨⟨{ session with inputs := [.hostWrite 0x00 0x0002] }, _, valid_inputs _ session_valid, rfl, by decide, by decide⟩,
    ⟨{ session with inputs := [.hardwareReset] }, _, valid_inputs _ session_valid, rfl, by decide, rfl⟩⟩

theorem witness_OneInteractionAtATime :
    ∃ s t : State, s.Valid ∧ step s = .next t ∧ t.req = some (.bus (memRead .shown 14)) ∧ t.req ≠ s.req :=
  ⟨{ polling with inputs := [.tick] }, _, valid_inputs _ polling_valid, rfl, by decide, by decide⟩

theorem witness_OnlyListedRequests :
    (∃ s t : State, s.Valid ∧ step s = .next t ∧ t.trace = .bus (memRead .shown 14) :: s.trace) ∧
      (∃ s t : State, s.Valid ∧ step s = .next t ∧ t.trace = .delay 5 :: s.trace) :=
  ⟨⟨{ polling with inputs := [.tick] }, _, valid_inputs _ polling_valid, rfl, by decide⟩,
    ⟨{ at' .poll .hsDly 2 with inputs := [.tick] }, _,
      ⟨rfl, by decide, by decide, by decide, nofun, by decide, by decide, by decide, by decide, by decide,
        by decide, by decide, by decide, by decide, by decide⟩, rfl, by decide⟩⟩

theorem witness_OneByteTransactions :
    (∃ s t : State, s.Valid ∧ step s = .next t ∧ t.trace = .bus (memRead .shown 1) :: s.trace) ∧
      (memRead .shown 1).header .shown = 0xA40001 ∧
      (∃ s t : State, s.Valid ∧ step s = .next t ∧ t.trace = .bus (memWrite .shown [0x80]) :: s.trace) ∧
      (memWrite .shown [0x80]).header .shown = 0x240001 :=
  ⟨⟨{ shaking with inputs := [.tick] }, _, valid_inputs _ shaking_valid, rfl, by decide⟩, by decide,
    ⟨{ at' .poll .hsWr 2 with inputs := [.tick] }, _,
      ⟨rfl, by decide, by decide, by decide, nofun, by decide, by decide, by decide, by decide, by decide,
        by decide, by decide, by decide, by decide, by decide⟩, rfl, by decide⟩, by decide⟩

/-- SLEEPING set by ENTER_SLEEP's write, and cleared by CLOSE. -/
theorem witness_SleepingChanges :
    (∃ s t : State, s.Valid ∧ step s = .next t ∧ t.sleeping ≠ s.sleeping ∧ t.sleeping = true) ∧
      (∃ s t : State, s.Valid ∧ step s = .next t ∧ t.sleeping ≠ s.sleeping ∧ t.sleeping = false) :=
  ⟨⟨asking (at' .power .pwWr 4) (.bus (memWrite .shown [0x01, 0x08])) (.writeAnswer true), _,
      ⟨rfl, by decide, by decide, by decide, by intro q h; cases h; rfl, by decide, by decide, by decide, by decide,
        by decide, by decide, by decide, by decide, by decide, by decide⟩, rfl, by decide, by decide⟩,
    ⟨{ session with sleeping := true, inputs := [.hostWrite 0x00 0x0006] }, _,
      ⟨rfl, by decide, by decide, by decide, nofun, by decide, by decide, by decide, by decide, by decide,
        by decide, by decide, by decide, by decide, by decide⟩, rfl, by decide, by decide⟩⟩

/-- Bits cleared by CLOSE, by the start of a poll and by the start of ENTER_SLEEP. -/
theorem witness_DiagCleared :
    (∃ s t : State, s.Valid ∧ step s = .next t ∧ s.diag.blBitClear = true ∧ t.diag.blBitClear = false) ∧
      (∃ s t : State, s.Valid ∧ step s = .next t ∧ s.diag.hsGaveUp = true ∧ t.diag.hsGaveUp = false) ∧
      (∃ s t : State, s.Valid ∧ step s = .next t ∧ s.diag.pwrWrFail = true ∧ t.diag.pwrWrFail = false) :=
  ⟨⟨{ session with inputs := [.hostWrite 0x00 0x0006] }, _, valid_inputs _ session_valid, rfl, by decide, by decide⟩,
    ⟨{ session with diag := { session.diag with hsGaveUp := true }, inputs := [.hostWrite 0x00 0x0002] }, _,
      ⟨rfl, by decide, by decide, by decide, nofun, by decide, by decide, by decide, by decide, by decide,
        by decide, by decide, by decide, by decide, by decide⟩, rfl, by decide, by decide⟩,
    ⟨{ session with diag := { session.diag with pwrWrFail := true }, inputs := [.hostWrite 0x00 0x0004] }, _,
      ⟨rfl, by decide, by decide, by decide, nofun, by decide, by decide, by decide, by decide, by decide,
        by decide, by decide, by decide, by decide, by decide⟩, rfl, by decide, by decide⟩⟩

theorem witness_ReadDataRuns : calm.fair ∧ session.Valid ∧ session.st = .operational :=
  ⟨calm_fair, session_valid, rfl⟩

theorem witness_GetCoordsRuns : calm.fair ∧ wired.Valid ∧ wired.st = .operational ∧ 15 ≤ 15 :=
  ⟨calm_fair, wired_valid, rfl, by decide⟩

theorem witness_InitRuns :
    calm.fair ∧ State.reset.Valid ∧ State.reset.st = .uninit ∧ State.reset.params.explicitBlExit = false ∧
      ∀ k pin dir, calm k (.claim pin dir) = .claimAnswer true :=
  ⟨calm_fair, reset_valid, rfl, rfl, fun _ _ _ => rfl⟩

/-- An environment that refuses the second claim. -/
def secondClaimFails : Env := fun k _ => .claimAnswer (k == 1)

theorem witness_InitClaimFails :
    ({ State.reset with cfg := 0x5455 } : State).Valid ∧ State.reset.st = .uninit ∧
      State.reset.params.explicitBlExit = false ∧ Nat.testBit 0x5455 0 = true ∧ Nat.testBit 0x5455 2 = true ∧
      Nat.testBit 0x5404 0 = false ∧ Nat.testBit 0x5404 2 = true ∧
      hostile 1 (.claim 5 .out) = .claimAnswer false ∧ hostile 1 (.claim 21 (.inEdge .falling)) = .claimAnswer false ∧
      secondClaimFails 1 (.claim 5 .out) = .claimAnswer true ∧
      secondClaimFails 3 (.claim 21 (.inEdge .falling)) = .claimAnswer false :=
  ⟨⟨rfl, by decide, by decide, by decide, nofun, by decide, by decide, by decide, by decide, by decide, by decide,
    by decide, by decide, by decide, by decide⟩, by decide⟩

/-- An environment that fails every write. -/
def deaf : Env := fun _ _ => .writeAnswer false

/-- Both answers: ok = 1 and ok = 0. -/
theorem witness_PowerCommandsRun :
    session.Valid ∧ session.st = .operational ∧ calm 1 (.bus (memWrite .shown [0x01, 0x08])) = .writeAnswer true ∧
      calm 1 (.bus (memWrite .shown [0x00, 0x08])) = .writeAnswer true ∧
      deaf 1 (.bus (memWrite .shown [0x01, 0x08])) = .writeAnswer false ∧
      deaf 1 (.bus (memWrite .shown [0x00, 0x08])) = .writeAnswer false := ⟨session_valid, by decide⟩

/-- With both lines claimed, and with none. -/
theorem witness_CloseRuns : wired.Valid ∧ wired.st = .operational ∧ session.Valid ∧ session.st = .operational :=
  ⟨wired_valid, rfl, session_valid, rfl⟩

end Sys2Proof.Tests
end

section
/-! What the TCB's own steps leave alone: a continuation of a procedure changes neither the parameters, CFG and
`touch_irq` nor REQ and the trace, so a step's only interaction is the one its label or its transaction makes. -/

namespace Sys2Proof.Machine

variable {s t u : State}

/-- `t` differs from `s` in the procedures' own registers only: no port interaction lies between them. -/
structure State.Silent (s t : State) : Prop where
  params : t.params = s.params
  cfg : t.cfg = s.cfg
  touchIrq : t.touchIrq = s.touchIrq
  req : t.req = s.req
  trace : t.trace = s.trace

theorem State.Silent.trans (h : s.Silent t) (h' : t.Silent u) : s.Silent u :=
  ⟨h'.params.trans h.params, h'.cfg.trans h.cfg, h'.touchIrq.trans h.touchIrq, h'.req.trans h.req,
    h'.trace.trans h.trace⟩

/-! ### The continuations of INIT -/

theorem State.enterResetting_silent (s : State) : s.Silent s.enterResetting := by
  unfold State.enterResetting
  split <;> exact ⟨rfl, rfl, rfl, rfl, rfl⟩

theorem State.claimInterrupt_silent (s : State) : s.Silent s.claimInterrupt := by
  unfold State.claimInterrupt
  split
  · exact ⟨rfl, rfl, rfl, rfl, rfl⟩
  · exact s.enterResetting_silent

theorem State.initStart_silent (s : State) : s.Silent s.initStart := by
  have hreset : s.Silent { s.sessionReset with st := .claim } := ⟨rfl, rfl, rfl, rfl, rfl⟩
  unfold State.initStart
  dsimp only
  split
  · exact ⟨rfl, rfl, rfl, rfl, rfl⟩
  · exact hreset.trans (State.claimInterrupt_silent _)

theorem State.initFail_silent (s : State) : s.Silent s.initFail := by
  unfold State.initFail
  split <;> exact ⟨rfl, rfl, rfl, rfl, rfl⟩

theorem State.rstClaimAnswered_silent (ok : Bool) (s : State) : s.Silent (s.rstClaimAnswered ok) := by
  have hclaimed : s.Silent { s with rstClaimed := true } := ⟨rfl, rfl, rfl, rfl, rfl⟩
  cases ok
  · exact s.initFail_silent
  · exact hclaimed.trans (State.claimInterrupt_silent _)

theorem State.intClaimAnswered_silent (ok : Bool) (s : State) : s.Silent (s.intClaimAnswered ok) := by
  have hclaimed : s.Silent { s with intClaimed := true } := ⟨rfl, rfl, rfl, rfl, rfl⟩
  cases ok
  · exact s.initFail_silent
  · exact hclaimed.trans (State.enterResetting_silent _)

/-- The three ends of a bootloader poll: the loop's timeout, the next poll, the loop's success (R236). -/
theorem State.bootStatusRead_silent (ok : Bool) (s : State) : s.Silent (s.bootStatusRead ok) := by
  unfold State.bootStatusRead
  dsimp only
  split
  · split <;> exact ⟨rfl, rfl, rfl, rfl, rfl⟩
  · exact ⟨rfl, rfl, rfl, rfl, rfl⟩

/-! ### The continuations of a poll and of CLOSE -/

theorem State.frameRead_silent (ok : Bool) (s : State) : s.Silent (s.frameRead ok) := by
  unfold State.frameRead
  split <;> exact ⟨rfl, rfl, rfl, rfl, rfl⟩

theorem State.handshakeRead_silent (ok : Bool) (s : State) : s.Silent (s.handshakeRead ok) := by
  cases ok <;> exact ⟨rfl, rfl, rfl, rfl, rfl⟩

theorem State.handshakeWritten_silent (ok : Bool) (s : State) : s.Silent (s.handshakeWritten ok) := by
  cases ok <;> exact ⟨rfl, rfl, rfl, rfl, rfl⟩

theorem State.handshakeDelayed_silent (s : State) : s.Silent s.handshakeDelayed := by
  unfold State.handshakeDelayed
  split <;> exact ⟨rfl, rfl, rfl, rfl, rfl⟩

theorem State.pollDecode_silent (s : State) : s.Silent s.pollDecode := by
  unfold State.pollDecode
  dsimp only
  split <;> exact ⟨rfl, rfl, rfl, rfl, rfl⟩

theorem State.closeInterrupt_silent (s : State) : s.Silent s.closeInterrupt := by
  unfold State.closeInterrupt
  split <;> exact ⟨rfl, rfl, rfl, rfl, rfl⟩

theorem State.closeStart_silent (s : State) : s.Silent s.closeStart := by
  have hclosing : s.Silent { s with st := .closing } := ⟨rfl, rfl, rfl, rfl, rfl⟩
  unfold State.closeStart
  dsimp only
  split
  · exact ⟨rfl, rfl, rfl, rfl, rfl⟩
  · exact hclosing.trans (State.closeInterrupt_silent _)

end Sys2Proof.Machine
end

section
/-! The one port interaction of a step (R13, R55, R93): from REQ and the trace before it to REQ and the trace after it.
Each shared operation, each meaning and each label makes at most one; so does the step. -/

namespace Sys2Proof.Machine

variable {s t : State}

/-- What a step can do to REQ and the trace: nothing, drop the request, send an event that is no request, or issue a
request when none is outstanding. -/
inductive PortMove (r : Option Req) (l : List Event) : Option Req → List Event → Prop where
  | silent : PortMove r l r l
  | drop : PortMove r l none l
  | send (e : Event) : PortMove r l r (e :: l)
  | issue (q : Req) (free : r = none) : PortMove r l (some q) (q.event :: l)

/-- What a meaning or a label does: one port move, with the parameters, CFG and `touch_irq` kept. -/
structure State.Moves (s t : State) : Prop where
  params : t.params = s.params
  cfg : t.cfg = s.cfg
  touchIrq : t.touchIrq = s.touchIrq
  port : PortMove s.req s.trace t.req t.trace

theorem State.Silent.moves (h : s.Silent t) : s.Moves t :=
  ⟨h.params, h.cfg, h.touchIrq, by rw [h.req, h.trace]; exact .silent⟩

/-- Nothing is sent when the outstanding request is answered (R55). -/
theorem State.Silent.moves_of_answered (h : s.answered.Silent t) : s.Moves t :=
  ⟨h.params, h.cfg, h.touchIrq, by rw [h.req, h.trace]; exact .drop⟩

/-- A posted interaction sends one event and leaves REQ as it is (R333). -/
theorem State.Silent.moves_of_emit {e : Event} (h : (s.emit e).Silent t) : s.Moves t :=
  ⟨h.params, h.cfg, h.touchIrq, by rw [h.req, h.trace]; exact .send e⟩

theorem State.moves_issue {q : Req} (hr : s.req = none) : s.Moves (s.issue q) := ⟨rfl, rfl, rfl, .issue q hr⟩

theorem State.moves_self : s.Moves s := ⟨rfl, rfl, rfl, .silent⟩

/-! ### The shared operations -/

theorem busWrite_moves {here : Bool} {d : List Byte} {k : Bool → State → State}
    (h : busWrite here d k s = .next t) (hk : ∀ ok (u : State), u.Silent (k ok u)) : s.Moves t := by
  obtain ⟨-, ⟨hr, rfl⟩ | ⟨-, ⟨ok, -, -, rfl⟩ | ⟨rfl, -⟩⟩⟩ := busWrite_next h
  · exact State.moves_issue hr
  · exact (hk ok _).moves_of_answered
  · exact State.moves_self

theorem busRead_moves {here : Bool} {n : Nat} {clear : State → State} {fill : List Byte → State → State}
    {k : Bool → State → State} (h : busRead here n clear fill k s = .next t) (hc : s.Silent (clear s))
    (hf : ∀ d (u : State), u.Silent (fill d u)) (hk : ∀ ok (u : State), u.Silent (k ok u)) : s.Moves t := by
  obtain ⟨-, ⟨hr, rfl⟩ | ⟨-, ⟨ok, d, -, -, -, rfl⟩ | ⟨rfl, -⟩⟩⟩ := busRead_next h
  · refine ⟨hc.params, hc.cfg, hc.touchIrq, ?_⟩
    simp only [State.issue_fields, hc.trace]
    exact .issue _ hr
  · exact ((hf d _).trans (hk ok _)).moves_of_answered
  · exact State.moves_self

theorem runSession_moves {op arg : BitVec 4} {start : State → State} (h : runSession op arg start s = .next t)
    (hs : ∀ u : State, u.Silent (start u)) : s.Moves t := by
  have hlatch : s.Silent (s.latchCmd op arg) := ⟨rfl, rfl, rfl, rfl, rfl⟩
  obtain ⟨-, rfl⟩ | ⟨-, -, rfl⟩ | ⟨-, rfl⟩ := runSession_next h
  · exact State.moves_self
  · exact ⟨rfl, rfl, rfl, .silent⟩
  · exact (hlatch.trans (hs _)).moves

theorem delayStep_moves {ms : Byte} {k : State → State} (h : delayStep ms k s = .next t)
    (hk : ∀ u : State, u.Silent (k u)) : s.Moves t := by
  obtain ⟨hr, rfl⟩ | ⟨-, ⟨-, -, rfl⟩ | rfl⟩ := delayStep_next h
  · exact State.moves_issue hr
  · exact (hk _).moves_of_answered
  · exact State.moves_self

theorem claimStep_moves {pin : Nat} {dir : PinDir} {k : Bool → State → State}
    (h : claimStep pin dir k s = .next t) (hk : ∀ ok (u : State), u.Silent (k ok u)) : s.Moves t := by
  obtain ⟨hr, rfl⟩ | ⟨-, ⟨ok, -, -, rfl⟩ | rfl⟩ := claimStep_next h
  · exact State.moves_issue hr
  · exact (hk ok _).moves_of_answered
  · exact State.moves_self

/-! ### The meanings, the labels and the step -/

theorem execInit_moves (h : execInit s = .next t) : s.Moves t := by
  have hlatch : s.Silent (s.latchCmd 1 0) := ⟨rfl, rfl, rfl, rfl, rfl⟩
  unfold execInit at h
  split at h
  · cases h; exact State.moves_self
  split at h
  · cases h; exact ⟨rfl, rfl, rfl, .silent⟩
  split at h
  · cases h
  · cases h; exact (hlatch.trans (State.initStart_silent _)).moves

theorem exec_moves {i : Instr} (h : exec i s = .next t) : s.Moves t := by
  cases i with
  | init => exact execInit_moves h
  | readData => exact runSession_moves h (fun _ => ⟨rfl, rfl, rfl, rfl, rfl⟩)
  | getCoords n => exact runSession_moves h (fun _ => ⟨rfl, rfl, rfl, rfl, rfl⟩)
  | enterSleep => exact runSession_moves h (fun _ => ⟨rfl, rfl, rfl, rfl, rfl⟩)
  | exitSleep => exact runSession_moves h (fun _ => ⟨rfl, rfl, rfl, rfl, rfl⟩)
  | close => exact runSession_moves h State.closeStart_silent
  | softResetWr => exact busWrite_moves h (fun _ _ => ⟨rfl, rfl, rfl, rfl, rfl⟩)
  | keyUnlockWr => exact busWrite_moves h (fun _ _ => ⟨rfl, rfl, rfl, rfl, rfl⟩)
  | blStatusRd =>
    exact busRead_moves h ⟨rfl, rfl, rfl, rfl, rfl⟩ (fun _ _ => ⟨rfl, rfl, rfl, rfl, rfl⟩) State.bootStatusRead_silent
  | frameRd len =>
    exact busRead_moves h ⟨rfl, rfl, rfl, rfl, rfl⟩ (fun _ _ => ⟨rfl, rfl, rfl, rfl, rfl⟩) State.frameRead_silent
  | hsRd =>
    exact busRead_moves h ⟨rfl, rfl, rfl, rfl, rfl⟩ (fun _ _ => ⟨rfl, rfl, rfl, rfl, rfl⟩) State.handshakeRead_silent
  | hsWr value => exact busWrite_moves h State.handshakeWritten_silent
  | sleepWr => exact busWrite_moves h (fun _ _ => ⟨rfl, rfl, rfl, rfl, rfl⟩)
  | wakeWr => exact busWrite_moves h (fun _ _ => ⟨rfl, rfl, rfl, rfl, rfl⟩)

/-- A posted GPIO interaction and the releases send one event; a claim and a delay issue their request or take its
answer; a bus transaction's label is left to its meaning. -/
theorem portStep_moves (h : portStep s = .next t) : s.Moves t := by
  have hrst : (s.emit (.gpioRelease s.rstPin)).Silent s.releaseRst := ⟨rfl, rfl, rfl, rfl, rfl⟩
  unfold portStep at h
  cases hl : s.lbl <;> simp only [hl] at h
  case clRst => exact claimStep_moves h State.rstClaimAnswered_silent
  case clInt => exact claimStep_moves h State.intClaimAnswered_silent
  case rsHold1 | rsHold2 | srWait | kyWait | blDly | eoDly =>
    exact delayStep_moves h (fun _ => ⟨rfl, rfl, rfl, rfl, rfl⟩)
  case hsDly => exact delayStep_moves h State.handshakeDelayed_silent
  case tdRst | rsAssert | rsRelease | csInt => cases h; exact ⟨rfl, rfl, rfl, .send _⟩
  case csRst => cases h; exact (hrst.trans (State.closeInterrupt_silent _)).moves_of_emit
  case plDec => cases h; exact s.pollDecode_silent.moves
  all_goals cases h; exact ⟨rfl, rfl, rfl, .silent⟩

theorem proceed_moves (h : s.proceed.run = .next t) : s.Moves t := by
  unfold State.proceed at h
  split at h
  · exact exec_moves h
  · exact portStep_moves h

/-- An edge report sends at most the `touch_irq` event (R326). -/
theorem State.pinEdge_port (pin : Nat) (edge : Edge) (s : State) :
    (s.pinEdge pin edge).params = s.params ∧
      PortMove s.req s.trace (s.pinEdge pin edge).req (s.pinEdge pin edge).trace := by
  unfold State.pinEdge
  split
  · exact ⟨rfl, .send .touchIrq⟩
  · exact ⟨rfl, .silent⟩

/-- A step makes at most one port interaction and keeps the parameters, from every state (R11, R13, R93). -/
theorem step_port (h : step s = .next t) : t.params = s.params ∧ PortMove s.req s.trace t.req t.trace := by
  rcases step_cases h with ⟨_, _, rfl⟩ | ⟨_, _, _, _, rfl⟩ | ⟨_, _, _, _, _, _, rfl⟩ | ⟨_, _, _, _, _, _, hexec⟩ |
    ⟨_, _, _, _, rfl⟩ | ⟨_, _, _, _, _, _, rfl⟩ | ⟨_, _, _, _, rfl⟩ | ⟨pin, edge, _, _, rfl⟩ | ⟨_, _, rfl⟩ |
    ⟨_, _, _, rfl⟩ | ⟨_, _, _, hgo⟩ | ⟨_, _, _, _, _, rfl⟩ | ⟨_, hgo⟩
  · -- the hardware reset
    exact ⟨rfl, .drop⟩
  · -- a write to CMD: dropped, illegal, or run
    exact ⟨rfl, .silent⟩
  · exact ⟨rfl, .silent⟩
  · exact ⟨(exec_moves hexec).params, (exec_moves hexec).port⟩
  · -- a write to CFG in its window, and a write without effect
    exact ⟨rfl, .silent⟩
  · exact ⟨rfl, .silent⟩
  · -- a host read and an edge report
    exact ⟨rfl, .send _⟩
  · exact State.pinEdge_port pin edge _
  · -- a late answer
    exact ⟨rfl, .silent⟩
  · -- a tick: while a request is outstanding, and with none
    exact ⟨rfl, .silent⟩
  · exact ⟨(proceed_moves hgo).params, (proceed_moves hgo).port⟩
  · -- an answer that fits no request
    exact ⟨rfl, .silent⟩
  · -- the TCB goes on: nothing is offered, or an answer the procedure takes
    exact ⟨(proceed_moves hgo).params, (proceed_moves hgo).port⟩

/-- Settles O8: the parameters half of `step_port`. -/
theorem parametersFixed : Obligations.ParametersFixed := by
  unfold Obligations.ParametersFixed
  intro s t h
  exact (step_port h).1

/-- At most one event is sent, and a request that was not outstanding before is issued when none was, as that event. -/
theorem PortMove.oneInteraction {r r' : Option Req} {l l' : List Event} (h : PortMove r l r' l') :
    (l' = l ∨ ∃ e, l' = e :: l) ∧ ∀ q, r' = some q → r' ≠ r → r = none ∧ l' = q.event :: l := by
  cases h with
  | silent => exact ⟨.inl rfl, fun _ _ hne => absurd rfl hne⟩
  | drop => exact ⟨.inl rfl, nofun⟩
  | send e => exact ⟨.inr ⟨e, rfl⟩, fun _ _ hne => absurd rfl hne⟩
  | issue q free =>
    refine ⟨.inr ⟨q.event, rfl⟩, fun q' hq _ => ?_⟩
    cases hq
    exact ⟨free, rfl⟩

/-- Settles O50: each of the four port moves keeps the order; no premise on the state is needed. -/
theorem oneInteractionAtATime : Obligations.OneInteractionAtATime := by
  unfold Obligations.OneInteractionAtATime
  intro s t _ h
  exact (step_port h).2.oneInteraction

end Sys2Proof.Machine
end

section
/-! What a step comes to, by the sequencer's label and by the command: the relation each whole-machine invariant is
proved over, so that no such proof walks through `step`, `exec` and `portStep` again. -/

namespace Sys2Proof.Machine

variable {s t : State}

/-- The buffer of the label's read transaction zeroed, as its issue does (R160); nothing at another label. -/
def State.zeroed (s : State) : State :=
  match s.lbl with
  | .blRd => s.clearBlbuf
  | .eoRd | .plRd => s.clearFrame
  | .hsRd => s.clearHsb
  | _ => s

/-- The TCB's own move from `s` (R13, R52, R55): the procedure waits, asks, takes its answer, or makes the internal
step of its label. -/
inductive State.Goes (s : State) : State → Prop where
  | waits : s.Goes s
  | asks {q : Req} (free : s.req = none) (own : labelReq s = some q) : s.Goes (s.zeroed.issue q)
  | rstClaimed (here : s.lbl = .clRst) (ok : Bool) : s.Goes (s.answered.rstClaimAnswered ok)
  | intClaimed (here : s.lbl = .clInt) (ok : Bool) : s.Goes (s.answered.intClaimAnswered ok)
  | tornDown (here : s.lbl = .tdRst) : s.Goes (s.releaseRst.finish .failed .errInit)
  | asserted (here : s.lbl = .rsAssert) : s.Goes ((s.gpioSet s.rstPin s.rstLvl).goto .rsHold1)
  | heldActive (here : s.lbl = .rsHold1) : s.Goes (s.answered.goto .rsRelease)
  | released (here : s.lbl = .rsRelease) : s.Goes ((s.gpioSet s.rstPin !s.rstLvl).goto .rsHold2)
  | heldInactive (here : s.lbl = .rsHold2) : s.Goes s.answered.enterSoftReset
  | softResetSent (here : s.lbl = .srWr) (ok : Bool) : s.Goes (s.answered.softResetWritten ok)
  | softResetWaited (here : s.lbl = .srWait) : s.Goes s.answered.enterKeyUnlock
  | keySent (here : s.lbl = .kyWr) (ok : Bool) : s.Goes (s.answered.keyWritten ok)
  | keyWaited (here : s.lbl = .kyWait) : s.Goes s.answered.enterAwaitBootExit
  | bootWaited (here : s.lbl = .blDly) : s.Goes (s.answered.goto .blRd)
  | bootRead (here : s.lbl = .blRd) (ok : Bool) (d : List Byte) : s.Goes ((s.answered.fillBlbuf d).bootStatusRead ok)
  | confirmWaited (here : s.lbl = .eoDly) : s.Goes (s.answered.goto .eoRd)
  | confirmed (here : s.lbl = .eoRd) (ok : Bool) (d : List Byte) :
    s.Goes ((s.answered.fillFrame d).confirmationRead ok)
  | polled (here : s.lbl = .plRd) (ok : Bool) (d : List Byte) : s.Goes ((s.answered.fillFrame d).pollFrameRead ok)
  | shakeRead (here : s.lbl = .hsRd) (ok : Bool) (d : List Byte) : s.Goes ((s.answered.fillHsb d).handshakeRead ok)
  | shakeWritten (here : s.lbl = .hsWr) (ok : Bool) : s.Goes (s.answered.handshakeWritten ok)
  | shakeDelayed (here : s.lbl = .hsDly) : s.Goes s.answered.handshakeDelayed
  | decoded (here : s.lbl = .plDec) : s.Goes s.pollDecode
  | powered (here : s.lbl = .pwWr) (op : s.curOp = 4 ∨ s.curOp = 5) (ok : Bool) :
    s.Goes (s.answered.powerWritten (s.curOp = 4) ok)
  | rstReleased (here : s.lbl = .csRst) : s.Goes s.releaseRst.closeInterrupt
  | intReleased (here : s.lbl = .csInt) : s.Goes s.releaseInt.closeReset
  | ended (here : s.lbl = .done) : s.Goes s.endCommand

/-- A command that runs while BUSY = 0 (R115): it starts its procedure, or is rejected. -/
inductive State.Starts (s : State) : State → Prop where
  | rejects (code : ResultCode) : s.Starts (s.reject code)
  | inits (idle : s.st = .uninit ∨ s.st = .failed) (implicit : s.params.explicitBlExit = false) :
    s.Starts (s.latchCmd 1 0).initStart
  | polls (session : s.st = .operational) (op arg : BitVec 4) (own : op = 2 ∨ op = 3) :
    s.Starts (s.latchCmd op arg).pollStart
  | powers (session : s.st = .operational) (op : BitVec 4) (own : op = 4 ∨ op = 5) :
    s.Starts (s.latchCmd op 0).powerStart
  | closes (session : s.st = .operational) : s.Starts (s.latchCmd 6 0).closeStart

/-- Everything one step can come to. The pulse, the inputs and the trace hold no register, so a `passes` changes
none. -/
inductive State.Steps (s : State) : State → Prop where
  | resets (rest : List Input) (move : s.inputs = .hardwareReset :: rest) : s.Steps s.quiet.taken.hardwareReset
  | configures (v : Nat) (window : s.st = .uninit ∨ s.st = .failed) :
    s.Steps { s.quiet.taken with cfg := field v 0 s.params.lit.hregW }
  | passes (pulse : Bool) (inputs : List Input) (trace : List Event) :
    s.Steps { s with touchIrq := pulse, inputs := inputs, trace := trace }
  | starts {t : State} (idle : s.busy = false) (command : s.quiet.taken.Starts t) : s.Steps t
  | goes (inputs : List Input) {t : State} (own : { s with touchIrq := false, inputs := inputs }.Goes t) : s.Steps t

/-! ### The operations -/

theorem State.zeroed_eq_self (h : s.lbl ∉ [.blRd, .eoRd, .plRd, .hsRd]) : s.zeroed = s := by
  unfold State.zeroed
  split <;> simp_all

/-- A write transaction at its label asks, takes its answer or waits. -/
theorem busWrite_goes {here : Bool} {d : List Byte} {k : Bool → State → State}
    (hq : here = true → labelReq s = some (.bus (memWrite s.params.lit d)))
    (hz : here = true → s.zeroed = s) (hk : here = true → ∀ ok, s.Goes (k ok s.answered))
    (h : busWrite here d k s = .next t) : s.Goes t := by
  obtain ⟨hh, ⟨hr, rfl⟩ | ⟨-, ⟨ok, -, -, rfl⟩ | ⟨rfl, -⟩⟩⟩ := busWrite_next h
  · simpa only [hz hh] using State.Goes.asks hr (hq hh)
  · exact hk hh ok
  · exact .waits

/-- A read transaction at its label asks over its zeroed buffer, takes its answer or waits. -/
theorem busRead_goes {here : Bool} {n : Nat} {clear : State → State} {fill : List Byte → State → State}
    {k : Bool → State → State} (hq : labelReq s = some (.bus (memRead s.params.lit n))) (hz : s.zeroed = clear s)
    (hk : ∀ ok d, s.Goes (k ok (fill d s.answered))) (h : busRead here n clear fill k s = .next t) : s.Goes t := by
  obtain ⟨-, ⟨hr, rfl⟩ | ⟨-, ⟨ok, d, -, -, -, rfl⟩ | ⟨rfl, -⟩⟩⟩ := busRead_next h
  · simpa only [hz] using State.Goes.asks hr hq
  · exact hk ok d
  · exact .waits

theorem delayStep_goes {ms : Byte} {k : State → State} (hq : labelReq s = some (.delay ms)) (hz : s.zeroed = s)
    (hk : s.Goes (k s.answered)) (h : delayStep ms k s = .next t) : s.Goes t := by
  obtain ⟨hr, rfl⟩ | ⟨-, ⟨-, -, rfl⟩ | rfl⟩ := delayStep_next h
  · simpa only [hz] using State.Goes.asks hr hq
  · exact hk
  · exact .waits

theorem claimStep_goes {pin : Nat} {dir : PinDir} {k : Bool → State → State}
    (hq : labelReq s = some (.claim pin dir)) (hz : s.zeroed = s) (hk : ∀ ok, s.Goes (k ok s.answered))
    (h : claimStep pin dir k s = .next t) : s.Goes t := by
  obtain ⟨hr, rfl⟩ | ⟨-, ⟨ok, -, -, rfl⟩ | rfl⟩ := claimStep_next h
  · simpa only [hz] using State.Goes.asks hr hq
  · exact hk ok
  · exact .waits

/-! ### The labels, the commands and the step -/

/-- The bus transaction of a label goes as `Goes` says. -/
theorem fetchBus_goes {i : Instr} (hi : fetchBus s = some i) (h : exec i s = .next t) : s.Goes t := by
  unfold fetchBus at hi
  cases hl : s.lbl <;> simp only [hl, reduceCtorEq] at hi
  case srWr =>
    cases hi
    exact busWrite_goes (fun _ => by simp [labelReq, hl]) (fun _ => State.zeroed_eq_self (by simp [hl]))
      (fun _ => .softResetSent hl) h
  case kyWr =>
    cases hi
    exact busWrite_goes (fun _ => by simp [labelReq, hl]) (fun _ => State.zeroed_eq_self (by simp [hl]))
      (fun _ => .keySent hl) h
  case blRd =>
    cases hi
    exact busRead_goes (by simp [labelReq, hl]) (by simp [State.zeroed, hl]) (.bootRead hl) h
  case eoRd =>
    cases hi
    exact busRead_goes (by simp [labelReq, hl]) (by simp [State.zeroed, hl])
      (fun ok d => by simpa [State.frameRead, hl] using State.Goes.confirmed hl ok d) h
  case plRd =>
    cases hi
    exact busRead_goes (by simp [labelReq, hl]) (by simp [State.zeroed, hl])
      (fun ok d => by simpa [State.frameRead, hl] using State.Goes.polled hl ok d) h
  case hsRd =>
    cases hi
    exact busRead_goes (by simp [labelReq, hl]) (by simp [State.zeroed, hl]) (.shakeRead hl) h
  case hsWr =>
    cases hi
    exact busWrite_goes (fun _ => by simp [labelReq, hl]) (fun _ => State.zeroed_eq_self (by simp [hl]))
      (fun _ => .shakeWritten hl) h
  case pwWr =>
    have hz : s.zeroed = s := State.zeroed_eq_self (by simp [hl])
    by_cases h4 : s.curOp = 4
    · simp only [h4, if_true] at hi
      cases hi
      exact busWrite_goes (fun _ => by simp [labelReq, hl, h4]) (fun _ => hz)
        (fun _ ok => by simpa [h4] using State.Goes.powered hl (.inl h4) ok) h
    · simp only [h4, if_false] at hi
      cases hi
      refine busWrite_goes (fun _ => by simp only [labelReq, hl, h4, if_false]) (fun _ => hz) (fun hh ok => ?_) h
      have h5 : s.curOp = 5 := by simpa [hl] using hh
      simpa [h5] using State.Goes.powered hl (.inr h5) ok

/-- So does a label that is no bus transaction. -/
theorem portStep_goes (hi : fetchBus s = none) (h : portStep s = .next t) : s.Goes t := by
  have hz : s.zeroed = s := State.zeroed_eq_self (by
    unfold fetchBus at hi
    split at hi <;> simp_all)
  unfold portStep at h
  cases hl : s.lbl <;> simp only [hl] at h
  case clRst => exact claimStep_goes (by simp [labelReq, hl]) hz (.rstClaimed hl) h
  case clInt => exact claimStep_goes (by simp [labelReq, hl]) hz (.intClaimed hl) h
  case rsHold1 => exact delayStep_goes (by simp [labelReq, hl]) hz (.heldActive hl) h
  case rsHold2 => exact delayStep_goes (by simp [labelReq, hl]) hz (.heldInactive hl) h
  case srWait => exact delayStep_goes (by simp [labelReq, hl]) hz (.softResetWaited hl) h
  case kyWait => exact delayStep_goes (by simp [labelReq, hl]) hz (.keyWaited hl) h
  case blDly => exact delayStep_goes (by simp [labelReq, hl]) hz (.bootWaited hl) h
  case eoDly => exact delayStep_goes (by simp [labelReq, hl]) hz (.confirmWaited hl) h
  case hsDly => exact delayStep_goes (by simp [labelReq, hl]) hz (.shakeDelayed hl) h
  case tdRst => cases h; exact .tornDown hl
  case rsAssert => cases h; exact .asserted hl
  case rsRelease => cases h; exact .released hl
  case plDec => cases h; exact .decoded hl
  case csRst => cases h; exact .rstReleased hl
  case csInt => cases h; exact .intReleased hl
  case done => cases h; exact .ended hl
  all_goals cases h; exact .waits

theorem proceed_goes (h : s.proceed.run = .next t) : s.Goes t := by
  unfold State.proceed at h
  split at h
  case h_1 i hi => exact fetchBus_goes hi h
  case h_2 hi => exact portStep_goes hi h

theorem execInit_starts (hb : s.busy = false) (h : execInit s = .next t) : s.Starts t := by
  unfold execInit at h
  rw [hb, if_neg Bool.false_ne_true] at h
  split at h
  case isTrue => cases h; exact .rejects _
  case isFalse ho =>
    split at h
    case isTrue => cases h
    case isFalse hx =>
      cases h
      refine .inits ?_ (by simpa using hx)
      revert hb ho
      unfold State.busy
      cases s.st <;> simp [St.busy]

theorem runSession_starts {op arg : BitVec 4} {start : State → State} (hb : s.busy = false)
    (hs : s.st = .operational → s.Starts (start (s.latchCmd op arg))) (h : runSession op arg start s = .next t) :
    s.Starts t := by
  obtain ⟨hb', -⟩ | ⟨-, -, rfl⟩ | ⟨ho, rfl⟩ := runSession_next h
  · simp [hb] at hb'
  · exact .rejects _
  · exact hs ho

/-- A command word is one of the six commands (R112). -/
theorem decodeCmd16_command {w : Nat} {i : Instr} (h : decodeCmd16 w = .ok i) :
    i = .init ∨ i = .readData ∨ (∃ n, i = .getCoords n) ∨ i = .enterSleep ∨ i = .exitSleep ∨ i = .close := by
  unfold decodeCmd16 at h
  repeat' split at h
  all_goals cases h <;> simp

theorem command_starts {w : Nat} {i : Instr} (hd : decodeCmd16 w = .ok i) (hb : s.busy = false)
    (h : exec i s = .next t) : s.Starts t := by
  obtain rfl | rfl | ⟨n, rfl⟩ | rfl | rfl | rfl := decodeCmd16_command hd
  · exact execInit_starts hb h
  · exact runSession_starts hb (fun ho => .polls ho _ _ (.inl rfl)) h
  · exact runSession_starts hb (fun ho => .polls ho _ _ (.inr rfl)) h
  · exact runSession_starts hb (fun ho => .powers ho _ (.inl rfl)) h
  · exact runSession_starts hb (fun ho => .powers ho _ (.inr rfl)) h
  · exact runSession_starts hb .closes h

/-- An edge report leaves every register as it is (R326). -/
theorem State.pinEdge_eq (pin : Nat) (edge : Edge) (s : State) :
    s.pinEdge pin edge =
      { s with touchIrq := (s.pinEdge pin edge).touchIrq, trace := (s.pinEdge pin edge).trace } := by
  unfold State.pinEdge
  split <;> rfl

theorem step_steps (h : step s = .next t) : s.Steps t := by
  rcases step_cases h with ⟨rest, hi, rfl⟩ | ⟨_, _, _, _, rfl⟩ | ⟨_, _, _, _, hb, _, rfl⟩ |
    ⟨_, _, i, _, hb, hd, hexec⟩ | ⟨v, _, _, hw, rfl⟩ | ⟨_, _, _, _, _, _, rfl⟩ | ⟨_, _, _, _, rfl⟩ |
    ⟨pin, edge, _, _, rfl⟩ | ⟨_, _, rfl⟩ | ⟨_, _, _, rfl⟩ | ⟨_, _, _, hgo⟩ | ⟨_, _, _, _, _, rfl⟩ | ⟨_, hgo⟩
  · exact .resets rest hi
  · -- a write to CMD: dropped, illegal, or run
    exact .passes false s.inputs.tail s.trace
  · exact .starts hb (.rejects _)
  · exact .starts hb (command_starts hd hb hexec)
  · -- a write to CFG in its window, and a write without effect
    exact .configures v hw
  · exact .passes false s.inputs.tail s.trace
  · -- a host read and an edge report
    exact .passes false s.inputs.tail _
  · rw [State.pinEdge_eq]
    exact .passes _ s.inputs.tail _
  · -- a late answer, and a tick while a request is outstanding
    exact .passes false s.inputs.tail s.trace
  · exact .passes false s.inputs.tail s.trace
  · exact .goes s.inputs.tail (proceed_goes hgo)
  · -- an answer that fits no request
    exact .passes false s.inputs.tail s.trace
  · exact .goes s.inputs (proceed_goes hgo)

end Sys2Proof.Machine
end

section
/-! The invariant (R10, R38 to R55): what each named update of the state needs to keep it, then the moves of the
procedures, label by label. -/

namespace Sys2Proof.Machine

variable {s t : State}

/-! ### What the invariant says of a position -/

/-- No label but a port's own holds a request (R55). -/
theorem State.Valid.free (h : s.Valid) (hl : labelReq s = none) : s.req = none := by
  cases hr : s.req with
  | none => rfl
  | some q => simpa [hl] using h.request q hr

/-- While BUSY = 0 the label is IDLE and nothing is outstanding (R38, R52, R55). -/
theorem State.Valid.idle (h : s.Valid) (hb : s.busy = false) : s.lbl = .idle ∧ s.req = none := by
  have hl : s.lbl = .idle := by
    have hseq := h.position
    unfold State.busy at hb
    revert hseq hb
    cases s.st <;> cases s.lbl <;> simp [seqOk, St.busy]
  exact ⟨hl, h.free (by simp [labelReq, hl])⟩

/-- SLEEPING is 0 where no session stands (R40). -/
theorem State.Valid.awake (h : s.Valid) (hc : s.cold = true) : s.sleeping = false := by
  by_contra hs
  exact absurd (hc.symm.trans (h.asleep (by simpa using hs)).2) nofun

/-- A session's lines, from the soft reset to CLOSE, stand as CFG enables them (R41). -/
def State.wired (s : State) : Prop := s.rstClaimed = s.rstEn ∧ s.intClaimed = s.intEn

/-- The states in which the claims, the flags and the session hang on ST alone: all but INIT's claims and CLOSE. -/
def St.uniform (st : St) : Prop := st ≠ .claim ∧ st ≠ .closing

/-- The states from the soft reset to CLOSE (R231, R275). -/
def St.wired (st : St) : Prop :=
  st ∈ [.softReset, .keyUnlock, .awaitBootExit, .enterOperational, .operational, .poll, .power]

/-- Moving the sequencer leaves CFG's fields. -/
@[simp] theorem State.rstEn_goto (l : Lbl) : (s.goto l).rstEn = s.rstEn := rfl

@[simp] theorem State.intEn_goto (l : Lbl) : (s.goto l).intEn = s.intEn := rfl

@[simp] theorem State.rstEn_enter (st : St) (l : Lbl) : (s.enter st l).rstEn = s.rstEn := rfl

@[simp] theorem State.intEn_enter (st : St) (l : Lbl) : (s.enter st l).intEn = s.intEn := rfl

theorem claimsOk_of_wired (hst : s.st.wired) : claimsOk s = true ↔ s.wired := by
  unfold St.wired at hst
  unfold claimsOk State.wired
  split <;> simp_all

theorem State.cold_of_wired (hst : s.st.wired) : s.cold = false := by
  unfold St.wired at hst
  unfold State.cold
  split <;> simp_all

/-- Where nothing is outstanding, REQ is the label's own for want of one (R55). -/
theorem State.request_of_free (hr : s.req = none) : ∀ q, s.req = some q → labelReq s = some q :=
  fun _ hq => absurd (hr.symm.trans hq) nofun

/-! ### The updates of the state -/

theorem State.Valid.passes (h : s.Valid) (pulse : Bool) (inputs : List Input) (trace : List Event) :
    State.Valid { s with touchIrq := pulse, inputs := inputs, trace := trace } :=
  { h with }

theorem State.Valid.reject (h : s.Valid) (code : ResultCode) : (s.reject code).Valid := { h with }

theorem State.Valid.answered (h : s.Valid) : s.answered.Valid :=
  { h with request := nofun, buffers := fun hr => absurd rfl hr }

/-- A label's own request is issued over its zeroed buffer (R55, R160). -/
theorem State.Valid.issue {q : Req} (h : s.Valid) (hq : labelReq s = some q)
    (hf : s.lbl = .eoRd ∨ s.lbl = .plRd → s.frame = List.replicate s.params.lit.frameLayoutLen 0)
    (hb : s.lbl = .blRd → s.blbuf = List.replicate s.params.lit.blFrameLen 0) (hh : s.lbl = .hsRd → s.hsb = 0) :
    (s.issue q).Valid :=
  { h with
    request := fun _ hq' => hq.trans hq'
    buffers := fun _ => ⟨hf, hb, hh⟩ }

/-- With nothing outstanding, a session's buffers take any bytes of their lengths. -/
theorem State.Valid.buffered (h : s.Valid) (hr : s.req = none) (hc : s.cold = false) {f b : List Byte} (x : Byte)
    (hf : f.length = s.frame.length) (hb : b.length = s.blbuf.length) :
    State.Valid { s with frame := f, blbuf := b, hsb := x } :=
  { h with
    sizes := ⟨hf.trans h.sizes.1, hb.trans h.sizes.2⟩
    request := State.request_of_free hr
    buffers := fun hn => absurd hr hn
    coldZero := fun hc' => absurd (hc.symm.trans hc') nofun }

/-- A session's DIAG takes any bits that leave the loop's two outcomes as they are (R43). -/
theorem State.Valid.flagged (h : s.Valid) (hc : s.cold = false) {d : Diag} (ht : d.blTimeout = s.diag.blTimeout)
    (hb : d.blBitClear = s.diag.blBitClear) : State.Valid { s with diag := d } :=
  { h with
    coldZero := fun hc' => absurd (hc.symm.trans hc') nofun
    bootFlags := by
      have hflags := h.bootFlags
      unfold bootFlagsOk at hflags ⊢
      dsimp only
      rw [ht, hb]
      exact hflags }

/-- A running session publishes values in their ranges; inside the poll loop CNT.BL_POLLS stays BI (R45, R99). -/
theorem State.Valid.publish (h : s.Valid) (hb : s.busy = true) (hc : s.cold = false) {p : Published}
    (hp : p.inRange = true) (hpolls : p.blPolls = s.regs.blPolls) : (s.publish p).Valid :=
  { h with
    bootPolls := ⟨h.bootPolls.1, fun hst => ⟨(h.bootPolls.2 hst).1, hpolls.trans (h.bootPolls.2 hst).2⟩⟩
    ranges := ⟨hp, by simpa [or_imp, forall_and] using ⟨h.ranges.2, hp⟩⟩
    torn := by
      have hb' : (s.publish p).busy = true := hb
      simp [hb']
    coldZero := fun hc' => absurd (hc.symm.trans hc') nofun }

/-- Within a state whose conditions hang on ST alone, a label of it follows another. -/
theorem State.Valid.goto (h : s.Valid) (hr : s.req = none) (hst : s.st.uniform) {l : Lbl}
    (hseq : seqOk s.st l s.curOp = true) (ha : l ∈ [.hsRd, .hsWr, .hsDly, .plDec] → 1 ≤ s.ha) : (s.goto l).Valid := by
  obtain ⟨hclaim, hclosing⟩ := hst
  have hclaims : claimsOk (s.goto l) = claimsOk s := by
    unfold claimsOk
    cases hst : s.st <;> simp_all
  have hcold : (s.goto l).cold = s.cold := by
    unfold State.cold
    cases hst : s.st <;> simp_all
  have hflags : bootFlagsOk (s.goto l) = bootFlagsOk s := by
    unfold bootFlagsOk
    cases hst : s.st <;> simp_all
  exact
    { h with
      position := hseq
      request := State.request_of_free hr
      attempts := ⟨h.attempts.1, ha⟩
      claims := hclaims.trans h.claims
      buffers := fun hn => absurd hr hn
      asleep := hcold ▸ h.asleep
      coldZero := hcold ▸ h.coldZero
      bootFlags := hflags.trans h.bootFlags }

/-! ### What a running command keeps wherever it stands -/

/-- The part of the invariant that no position enters, for a running command that awaits nothing. -/
structure State.Running (s : State) : Prop where
  literals : s.params.lit = Literals.shown
  sizes : s.frame.length = s.params.lit.frameLayoutLen ∧ s.blbuf.length = s.params.lit.blFrameLen
  config : s.cfg < 2 ^ s.params.lit.hregW
  free : s.req = none
  ceiling : s.ha ≤ s.params.lit.hsMaxAttempts
  bootCeiling : s.bi ≤ s.params.lit.blMaxPolls
  ranges : s.regs.inRange = true ∧ ∀ p ∈ s.seen, p.inRange = true
  kept : s.regs ∈ s.seen
  implicit : s.params.explicitBlExit = false

/-- Outside UNINIT no session stands under EXPLICIT_BL_EXIT = true (R240). -/
theorem State.Valid.implicit (h : s.Valid) (hst : s.st ≠ .uninit) : s.params.explicitBlExit = false := by
  by_contra hx
  exact hst (h.explicitExit (by simpa using hx))

theorem State.Valid.running (h : s.Valid) (hb : s.busy = true) (hr : s.req = none) : s.Running :=
  { h with
    free := hr
    ceiling := h.attempts.1
    bootCeiling := h.bootPolls.1
    kept := by simpa [hb] using h.torn
    implicit := h.implicit (by rintro hst; simp [State.busy, hst, St.busy] at hb) }

/-- A command that is accepted runs: its opcode is latched and its old registers are kept (R54, R99). -/
theorem State.Valid.latched (h : s.Valid) (hb : s.busy = false) (hx : s.params.explicitBlExit = false)
    (op arg : BitVec 4) : (s.latchCmd op arg).Running :=
  { h with
    free := (h.idle hb).2
    ceiling := h.attempts.1
    bootCeiling := h.bootPolls.1
    ranges := ⟨h.ranges.1, by simpa using h.ranges.1⟩
    kept := by simp
    implicit := hx }

/-- What a position adds to `Running`, in a session whose lines are wired. -/
theorem State.Running.valid_of_wired (h : s.Running) (hst : s.st.wired) (hb : s.busy = true)
    (hseq : seqOk s.st s.lbl s.curOp = true) (hha : s.lbl ∈ [.hsRd, .hsWr, .hsDly, .plDec] → 1 ≤ s.ha)
    (hpolls : s.st = .awaitBootExit → 1 ≤ s.bi ∧ s.regs.blPolls = BitVec.ofNat 4 s.bi) (hw : s.wired)
    (hsl : s.sleeping = true → s.st ∈ [.operational, .poll, .power, .closing]) (hfl : bootFlagsOk s = true) :
    s.Valid :=
  have hc : s.cold = false := State.cold_of_wired hst
  { h with
    position := hseq
    request := State.request_of_free h.free
    attempts := ⟨h.ceiling, hha⟩
    bootPolls := ⟨h.bootCeiling, hpolls⟩
    claims := (claimsOk_of_wired hst).mpr hw
    torn := by simpa [hb] using h.kept
    buffers := fun hn => absurd h.free hn
    asleep := fun hs => ⟨hsl hs, hc⟩
    coldZero := fun hc' => absurd (hc.symm.trans hc') nofun
    explicitExit := fun hx => absurd (h.implicit.symm.trans hx) nofun
    bootFlags := hfl }

/-! ### INIT up to its soft reset (R231 to R233) -/

/-- What an INIT keeps from its start to its soft reset: no session stands yet. -/
structure State.Starting (s : State) : Prop extends s.Running where
  op : s.curOp = 1
  awake : s.sleeping = false
  regs : s.regs = Published.zero
  diag : s.diag = Diag.zero
  frame : s.frame = List.replicate s.params.lit.frameLayoutLen 0
  blbuf : s.blbuf = List.replicate s.params.lit.blFrameLen 0
  hsb : s.hsb = 0

theorem State.Starting.valid (h : s.Starting) (hst : s.st ∈ [.claim, .resetting, .softReset])
    (hseq : seqOk s.st s.lbl 1 = true) (hc : claimsOk s = true) : s.Valid :=
  { h with
    position := h.op ▸ hseq
    request := State.request_of_free h.free
    attempts := ⟨h.ceiling, by
      revert hseq hst
      cases s.st <;> cases s.lbl <;> simp [seqOk]⟩
    bootPolls := ⟨h.bootCeiling, by rintro hb; simp [hb] at hst⟩
    claims := hc
    torn := by
      have hb : s.busy = true := by
        revert hst
        unfold State.busy
        cases s.st <;> simp [St.busy]
      simpa [hb] using h.kept
    buffers := fun hn => absurd h.free hn
    asleep := fun hs => absurd (h.awake.symm.trans hs) nofun
    coldZero := fun _ => ⟨h.regs, h.diag, h.frame, h.blbuf, h.hsb⟩
    explicitExit := fun hx => absurd (h.implicit.symm.trans hx) nofun
    bootFlags := by
      revert hst
      unfold bootFlagsOk
      rw [h.diag]
      cases s.st <;> simp [Diag.zero] }

/-- During the claims and the reset pulse. -/
theorem State.Valid.starting (h : s.Valid) (hr : s.req = none) (hst : s.st = .claim ∨ s.st = .resetting) :
    s.Starting := by
  have hb : s.busy = true := by obtain hst | hst := hst <;> simp [State.busy, hst, St.busy]
  have hop : s.curOp = 1 := by
    have hseq := h.position
    revert hseq
    obtain hst | hst := hst <;> rw [hst] <;> cases s.lbl <;> simp [seqOk, St.busy]
  have hcold : s.cold = true := by obtain hst | hst := hst <;> simp [State.cold, hst]
  obtain ⟨hregs, hdiag, hframe, hblbuf, hhsb⟩ := h.coldZero hcold
  exact
    { h.running hb hr with
      op := hop, awake := h.awake hcold, regs := hregs, diag := hdiag, frame := hframe, blbuf := hblbuf, hsb := hhsb }

theorem State.Starting.enterSoftReset (h : s.Starting) (hw : s.wired) : s.enterSoftReset.Valid :=
  have hu : s.enterSoftReset.Starting := { h with }
  hu.valid (by simp [State.enterSoftReset]) rfl ((claimsOk_of_wired (by simp [State.enterSoftReset, St.wired])).mpr hw)

theorem State.Starting.enterResetting (h : s.Starting) (hw : s.wired) : s.enterResetting.Valid := by
  unfold State.enterResetting
  split
  case isTrue hen =>
    have hu : (s.enter .resetting .rsAssert).Starting := { h with }
    refine hu.valid (by simp) rfl ?_
    simp [claimsOk, hw.1, hw.2, hen]
  case isFalse => exact h.enterSoftReset hw

theorem State.Starting.claimInterrupt (h : s.Starting) (hst : s.st = .claim) (hr : s.rstClaimed = s.rstEn)
    (hi : s.intClaimed = false) : s.claimInterrupt.Valid := by
  unfold State.claimInterrupt
  split
  case isTrue hen =>
    have hu : (s.goto .clInt).Starting := { h with }
    exact hu.valid (by simp [hst]) (by simp [hst, seqOk]) (by simp [claimsOk, hst, hi, hen, hr])
  case isFalse hen => exact h.enterResetting ⟨hr, by simpa [hi] using hen⟩

/-- INIT's first claim, of the reset line if one is configured (R231). -/
theorem State.Starting.firstClaim (h : s.Starting) (hst : s.st = .claim) (hr : s.rstClaimed = false)
    (hi : s.intClaimed = false) : (if s.rstEn then s.goto .clRst else s.claimInterrupt).Valid := by
  split
  case isTrue hen =>
    have hu : (s.goto .clRst).Starting := { h with }
    exact hu.valid (by simp [hst]) (by simp [hst, seqOk]) (by simp [claimsOk, hst, hen, hr, hi])
  case isFalse hen => exact h.claimInterrupt hst (by simpa [hr] using hen) hi

/-- FAILED, with every line given up (R232). -/
theorem State.Starting.fails (h : s.Starting) (hr : s.rstClaimed = false) (hi : s.intClaimed = false) (c : ResultCode) :
    (s.finish .failed c).Valid :=
  { h with
    position := rfl
    request := State.request_of_free h.free
    attempts := ⟨h.ceiling, by simp⟩
    bootPolls := ⟨h.bootCeiling, nofun⟩
    ranges := ⟨h.ranges.1, nofun⟩
    claims := by simp [claimsOk, hr, hi]
    torn := by simp [State.busy, St.busy]
    buffers := fun hn => absurd h.free hn
    asleep := fun hs => absurd (h.awake.symm.trans hs) nofun
    coldZero := fun _ => ⟨h.regs, h.diag, h.frame, h.blbuf, h.hsb⟩
    explicitExit := fun hx => absurd (h.implicit.symm.trans hx) nofun
    bootFlags := by simp [bootFlagsOk, h.diag, Diag.zero] }

theorem State.Starting.initFail (h : s.Starting) (hst : s.st = .claim) (hi : s.intClaimed = false) :
    s.initFail.Valid := by
  unfold State.initFail
  split
  case isTrue hr =>
    have hu : (s.goto .tdRst).Starting := { h with }
    exact hu.valid (by simp [hst]) (by simp [hst, seqOk]) (by simp [claimsOk, hst, hr, hi])
  case isFalse hr => exact h.fails (by simpa using hr) hi _

end Sys2Proof.Machine
end

section
/-! The procedures' moves, label by label, once no request is outstanding: each keeps the invariant (R231 to R238, R270 to
R274). -/

namespace Sys2Proof.Machine

variable {s t : State}

/-! ### Moves within a top state -/

/-- The moves from label to label within one top state, apart from those of INIT's claims and of CLOSE (R203, R233 to
R237, R270). -/
def Lbl.moves : List (Lbl × Lbl) :=
  [(.rsAssert, .rsHold1), (.rsHold1, .rsRelease), (.rsRelease, .rsHold2), (.srWr, .srWait), (.kyWr, .kyWait),
    (.blDly, .blRd), (.eoDly, .eoRd), (.eoRd, .done), (.plRd, .hsRd), (.hsRd, .hsWr), (.hsRd, .hsDly), (.hsWr, .hsDly),
    (.hsWr, .plDec), (.hsDly, .hsRd), (.hsDly, .plDec), (.plDec, .done)]

/-- Both labels of such a move stand in the same states and commands (R52). -/
theorem seqOk_moves :
    ∀ m ∈ Lbl.moves, ∀ st op, seqOk st m.1 op = true → seqOk st m.2 op = true ∧ st.uniform := by
  simp +contextual [Lbl.moves, seqOk, St.uniform]

theorem State.Valid.next (h : s.Valid) (hr : s.req = none) {l l' : Lbl} (hl : s.lbl = l) (hm : (l, l') ∈ Lbl.moves)
    (ha : l' ∈ [.hsRd, .hsWr, .hsDly, .plDec] → 1 ≤ s.ha) : (s.goto l').Valid :=
  have hseq := seqOk_moves _ hm _ _ (hl ▸ h.position)
  h.goto hr hseq.2 hseq.1 ha

/-- The labels from the soft reset to a command's last transaction or decode, outside CLOSE. -/
def Lbl.wired : List Lbl :=
  [.srWr, .srWait, .kyWr, .kyWait, .blDly, .blRd, .eoDly, .eoRd, .plRd, .hsRd, .hsWr, .hsDly, .plDec, .pwWr]

/-- There a command runs in a wired session. -/
theorem State.Valid.wired (h : s.Valid) (hl : s.lbl ∈ Lbl.wired) : s.st.wired ∧ s.busy = true ∧ s.wired := by
  have hst : s.st.wired ∧ s.st.busy = true := by
    have hseq := h.position
    revert hseq hl
    cases s.lbl <;> simp +contextual [seqOk, Lbl.wired, St.wired, St.busy]
  exact ⟨hst.1, hst.2, (claimsOk_of_wired hst.1).mp h.claims⟩

theorem State.Valid.warm (h : s.Valid) (hl : s.lbl ∈ Lbl.wired) : s.cold = false := State.cold_of_wired (h.wired hl).1

theorem Published.inRange_iff {p : Published} :
    p.inRange = true ↔
      p.count.toNat ≤ 2 ∧ p.ocount.toNat ≤ 2 ∧ p.hsAttempts.toNat ≤ 20 ∧ p.blPolls.toNat ≤ 10 := by
  simp [Published.inRange, and_assoc]

/-! ### INIT's claims and reset pulse -/

/-- At a claim of INIT: the session it sets up, and the lines so far (R231). -/
theorem State.Valid.claiming (h : s.Valid) (hr : s.req = none) (hl : s.lbl ∈ [.clRst, .clInt, .tdRst]) :
    s.st = .claim ∧ s.Starting ∧ s.intClaimed = false ∧ (s.lbl = .clRst → s.rstEn = true ∧ s.rstClaimed = false) ∧
      (s.lbl = .clInt → s.intEn = true ∧ s.rstClaimed = s.rstEn) := by
  have hseq := h.position
  have hc := h.claims
  have hst : s.st = .claim := by
    revert hseq hl
    cases s.lbl <;> simp +contextual [seqOk]
  refine ⟨hst, h.starting hr (.inl hst), ?_⟩
  simp only [List.mem_cons, List.not_mem_nil, or_false] at hl
  obtain hl | hl | hl := hl <;> simp_all [claimsOk]

theorem State.Valid.rstClaimAnswered (h : s.Valid) (hr : s.req = none) (hl : s.lbl = .clRst) (ok : Bool) :
    (s.rstClaimAnswered ok).Valid := by
  obtain ⟨hst, hs, hi, hrst, -⟩ := h.claiming hr (by simp [hl])
  cases ok with
  | false => exact hs.initFail hst hi
  | true =>
    have hu : State.Starting { s with rstClaimed := true } := { hs with }
    exact hu.claimInterrupt hst (hrst hl).1.symm hi

theorem State.Valid.intClaimAnswered (h : s.Valid) (hr : s.req = none) (hl : s.lbl = .clInt) (ok : Bool) :
    (s.intClaimAnswered ok).Valid := by
  obtain ⟨hst, hs, hi, -, hint⟩ := h.claiming hr (by simp [hl])
  cases ok with
  | false => exact hs.initFail hst hi
  | true =>
    have hu : State.Starting { s with intClaimed := true } := { hs with }
    exact hu.enterResetting ⟨(hint hl).2, (hint hl).1.symm⟩

theorem State.Valid.tornDown (h : s.Valid) (hr : s.req = none) (hl : s.lbl = .tdRst) :
    (s.releaseRst.finish .failed .errInit).Valid := by
  obtain ⟨-, hs, hi, -, -⟩ := h.claiming hr (by simp [hl])
  have hu : s.releaseRst.Starting := { hs with }
  exact hu.fails rfl hi _

theorem State.Valid.heldInactive (h : s.Valid) (hr : s.req = none) (hl : s.lbl = .rsHold2) :
    s.enterSoftReset.Valid := by
  obtain ⟨hst, -⟩ : s.st = .resetting ∧ s.curOp = 1 := by simpa [seqOk, hl] using h.position
  obtain ⟨⟨hen, hrst⟩, hint⟩ : (s.rstEn = true ∧ s.rstClaimed = true) ∧ s.intClaimed = s.intEn := by
    simpa [claimsOk, hst] using h.claims
  exact (h.starting hr (.inr hst)).enterSoftReset ⟨hrst.trans hen.symm, hint⟩

/-! ### The rest of the bring-up -/

theorem State.Valid.softResetWritten (h : s.Valid) (hr : s.req = none) (hl : s.lbl = .srWr) (ok : Bool) :
    (s.softResetWritten ok).Valid := by
  have hc : s.cold = false := h.warm (by simp [hl, Lbl.wired])
  have hd : State.Valid { s with diag := { s.diag with srWrFail := s.diag.srWrFail || !ok } } := h.flagged hc rfl rfl
  exact hd.next hr hl (by decide) (by simp)

theorem State.Valid.enterKeyUnlock (h : s.Valid) (hr : s.req = none) (hl : s.lbl = .srWait) :
    s.enterKeyUnlock.Valid := by
  obtain ⟨-, hb, hw⟩ := h.wired (by simp [hl, Lbl.wired])
  obtain ⟨hst, hop⟩ : s.st = .softReset ∧ s.curOp = 1 := by simpa [seqOk, hl] using h.position
  have hu : s.enterKeyUnlock.Running := { h.running hb hr with }
  exact hu.valid_of_wired (by simp [State.enterKeyUnlock, St.wired]) rfl (by simp [State.enterKeyUnlock, seqOk, hop])
    (by simp [State.enterKeyUnlock]) nofun hw (fun hs => absurd (h.asleep hs).1 (by simp [hst]))
    (by simpa [bootFlagsOk, State.enterKeyUnlock, hst] using h.bootFlags)

theorem State.Valid.keyWritten (h : s.Valid) (hr : s.req = none) (hl : s.lbl = .kyWr) (ok : Bool) :
    (s.keyWritten ok).Valid := by
  have hc : s.cold = false := h.warm (by simp [hl, Lbl.wired])
  have hd : State.Valid { s with diag := { s.diag with keyWrFail := s.diag.keyWrFail || !ok } } := h.flagged hc rfl rfl
  exact hd.next hr hl (by decide) (by simp)

/-- A bootloader poll starts, the first or the next: BI is CNT.BL_POLLS, and at most ten (R45, R236). -/
theorem State.Valid.bootPoll (h : s.Valid) (hr : s.req = none) (hl : s.lbl = .kyWait ∨ s.lbl = .blRd) {b : Nat}
    (hb : b < s.params.lit.blMaxPolls) : ({ s with st := .awaitBootExit, bi := b }.nextBootPoll).Valid := by
  obtain ⟨-, hbusy, hw⟩ := h.wired (by obtain hl | hl := hl <;> simp [hl, Lbl.wired])
  have hrun := h.running hbusy hr
  obtain ⟨hst, hop⟩ : (s.st = .keyUnlock ∨ s.st = .awaitBootExit) ∧ s.curOp = 1 := by
    have hseq := h.position
    obtain hl | hl := hl <;> simp_all [seqOk]
  have h10 : b < 10 := by simpa [h.literals] using hb
  have hp : Published.inRange { s.regs with blPolls := BitVec.ofNat 4 (b + 1) } = true := by
    obtain ⟨hn, ho, ha, -⟩ := Published.inRange_iff.mp h.ranges.1
    exact Published.inRange_iff.mpr ⟨hn, ho, ha, by rw [BitVec.toNat_ofNat]; omega⟩
  have hu : ({ s with st := .awaitBootExit, bi := b }.nextBootPoll).Running :=
    { hrun with
      bootCeiling := hb
      ranges := ⟨hp, by simpa [State.nextBootPoll, or_imp, forall_and] using ⟨h.ranges.2, hp⟩⟩
      kept := by simp [State.nextBootPoll] }
  have hfl : s.diag.blTimeout = false ∧ s.diag.blBitClear = false := by
    have hfl := h.bootFlags
    obtain hst | hst := hst <;> simpa [bootFlagsOk, hst] using hfl
  exact hu.valid_of_wired (by simp [State.nextBootPoll, St.wired]) rfl (by simp [State.nextBootPoll, seqOk, hop])
    (by simp [State.nextBootPoll]) (fun _ => ⟨by simp [State.nextBootPoll], rfl⟩) hw
    (fun hs => absurd (h.asleep hs).1 (by obtain hst | hst := hst <;> simp [hst]))
    (by simp [bootFlagsOk, State.nextBootPoll, hfl])

/-- The loop ends with exactly one of its outcomes set (R43, R237). -/
theorem State.Valid.enterEnterOperational (h : s.Valid) (hr : s.req = none) (hl : s.lbl = .blRd) {d : Diag}
    (hd : (d.blTimeout != d.blBitClear) = true) : ({ s with diag := d }.enterEnterOperational).Valid := by
  obtain ⟨-, hb, hw⟩ := h.wired (by simp [hl, Lbl.wired])
  obtain ⟨hst, hop⟩ : s.st = .awaitBootExit ∧ s.curOp = 1 := by simpa [seqOk, hl] using h.position
  have hu : ({ s with diag := d }.enterEnterOperational).Running :=
    { h.running hb hr with sizes := ⟨by simp [State.enterEnterOperational], h.sizes.2⟩ }
  exact hu.valid_of_wired (by simp [State.enterEnterOperational, St.wired]) rfl
    (by simp [State.enterEnterOperational, seqOk, hop]) (by simp [State.enterEnterOperational]) nofun hw
    (fun hs => absurd (h.asleep hs).1 (by simp [hst])) (by simpa [bootFlagsOk, State.enterEnterOperational] using hd)

/-- The three ends of a bootloader poll (R236). -/
theorem State.Valid.bootStatusRead (h : s.Valid) (hr : s.req = none) (hl : s.lbl = .blRd) (ok : Bool) :
    (s.bootStatusRead ok).Valid := by
  obtain ⟨hst, -⟩ : s.st = .awaitBootExit ∧ s.curOp = 1 := by simpa [seqOk, hl] using h.position
  have hflags : s.diag.blTimeout = false ∧ s.diag.blBitClear = false := by
    simpa [bootFlagsOk, hst] using h.bootFlags
  have hd : State.Valid { s with diag := { s.diag with blRdFail := s.diag.blRdFail || !ok } } :=
    h.flagged (h.warm (by simp [hl, Lbl.wired])) rfl rfl
  unfold State.bootStatusRead
  dsimp only
  split
  case isTrue =>
    split
    case isTrue => exact hd.enterEnterOperational hr hl (by simp [hflags.2])
    case isFalse hbi =>
      have hu := hd.bootPoll hr (.inr hl) (b := s.bi) (Nat.lt_of_le_of_ne h.bootPolls.1 hbi)
      rwa [← hst] at hu
  case isFalse => exact hd.enterEnterOperational hr hl (by simp [hflags.1])

theorem State.Valid.confirmationRead (h : s.Valid) (hr : s.req = none) (hl : s.lbl = .eoRd) (ok : Bool) :
    (s.confirmationRead ok).Valid := by
  have hd : State.Valid { s with diag := { s.diag with eoRdFail := s.diag.eoRdFail || !ok } } :=
    h.flagged (h.warm (by simp [hl, Lbl.wired])) rfl rfl
  exact hd.next hr hl (by decide) (by simp)

/-! ### The poll -/

/-- An attempt of the handshake, within its ceiling (R203). -/
theorem State.Valid.attempt (h : s.Valid) (hr : s.req = none) (hl : s.lbl = .plRd ∨ s.lbl = .hsDly) {n : Nat}
    (h1 : 1 ≤ n) (h20 : n ≤ s.params.lit.hsMaxAttempts) : ({ s with ha := n }.goto .hsRd).Valid := by
  have hn : State.Valid { s with ha := n } := { h with attempts := ⟨h20, fun _ => h1⟩ }
  obtain hl | hl := hl <;> exact hn.next hr hl (by decide) (fun _ => h1)

theorem State.Valid.pollFrameRead (h : s.Valid) (hr : s.req = none) (hl : s.lbl = .plRd) (ok : Bool) :
    (s.pollFrameRead ok).Valid := by
  have hd : State.Valid { s with diag := { s.diag with frameRdFail := s.diag.frameRdFail || !ok } } :=
    h.flagged (h.warm (by simp [hl, Lbl.wired])) rfl rfl
  exact hd.attempt hr (.inl hl) le_rfl (by simp [h.literals])

theorem State.Valid.handshakeRead (h : s.Valid) (hr : s.req = none) (hl : s.lbl = .hsRd) (ok : Bool) :
    (s.handshakeRead ok).Valid := by
  have ha : 1 ≤ s.ha := h.attempts.2 (by simp [hl])
  cases ok <;> exact h.next hr hl (by decide) (fun _ => ha)

/-- The handshake's end publishes the attempt it reached (R203, R270). -/
theorem State.Valid.endHandshake (h : s.Valid) (hr : s.req = none) (hl : s.lbl = .hsWr ∨ s.lbl = .hsDly) :
    s.endHandshake.Valid := by
  obtain ⟨hst, hb, -⟩ := h.wired (by obtain hl | hl := hl <;> simp [hl, Lbl.wired])
  have ha : 1 ≤ s.ha := h.attempts.2 (by obtain hl | hl := hl <;> simp [hl])
  have h20 : s.ha ≤ 20 := by simpa [h.literals] using h.attempts.1
  have hp : Published.inRange { s.regs with hsAttempts := BitVec.ofNat 5 s.ha } = true := by
    obtain ⟨hn, ho, -, hb⟩ := Published.inRange_iff.mp h.ranges.1
    exact Published.inRange_iff.mpr ⟨hn, ho, by rw [BitVec.toNat_ofNat]; omega, hb⟩
  have hu := h.publish hb (State.cold_of_wired hst) hp rfl
  obtain hl | hl := hl <;> exact hu.next hr hl (by decide) (fun _ => ha)

theorem State.Valid.handshakeWritten (h : s.Valid) (hr : s.req = none) (hl : s.lbl = .hsWr) (ok : Bool) :
    (s.handshakeWritten ok).Valid := by
  cases ok with
  | true => exact h.endHandshake hr (.inl hl)
  | false => exact h.next hr hl (by decide) (fun _ => h.attempts.2 (by simp [hl]))

theorem State.Valid.handshakeDelayed (h : s.Valid) (hr : s.req = none) (hl : s.lbl = .hsDly) :
    s.handshakeDelayed.Valid := by
  unfold State.handshakeDelayed
  split
  case isTrue =>
    have hd : State.Valid { s with diag := { s.diag with hsGaveUp := true } } :=
      h.flagged (h.warm (by simp [hl, Lbl.wired])) rfl rfl
    exact hd.endHandshake hr (.inr hl)
  case isFalse hne => exact h.attempt hr (.inr hl) (by omega) (Nat.lt_of_le_of_ne h.attempts.1 hne)

theorem decodedRegs_inRange (f : List Byte) {r : Published} (h : r.inRange = true) :
    (decodedRegs .shown f r).inRange = true := by
  obtain ⟨-, ho, ha, hb⟩ := Published.inRange_iff.mp h
  exact Published.inRange_iff.mpr ⟨decodedRegs_count_le f r, ho, ha, hb⟩

theorem minCount_le (n : BitVec 2) (m : Nat) : (minCount n m).toNat ≤ n.toNat := by
  rw [minCount, BitVec.toNat_ofNat]
  exact (Nat.mod_le _ _).trans (Nat.min_le_left _ _)

theorem copiedRegs_inRange (c : GetxyClear) (m : Nat) {r : Published} (h : r.inRange = true) :
    (copiedRegs c m r).inRange = true := by
  obtain ⟨hn, -, ha, hb⟩ := Published.inRange_iff.mp h
  have hcount : (copiedRegs c m r).count.toNat ≤ 2 := by
    unfold copiedRegs
    dsimp only
    split
    · decide
    · exact hn
  exact Published.inRange_iff.mpr ⟨hcount, (minCount_le _ _).trans hcount, ha, hb⟩

theorem State.Valid.pollDecode (h : s.Valid) (hr : s.req = none) (hl : s.lbl = .plDec) : s.pollDecode.Valid := by
  obtain ⟨hst, hb, -⟩ := h.wired (by simp [hl, Lbl.wired])
  have hc : s.cold = false := State.cold_of_wired hst
  have hp : (decodedRegs s.params.lit s.frame s.regs).inRange = true :=
    h.literals ▸ decodedRegs_inRange s.frame h.ranges.1
  have hd := h.publish hb hc hp rfl
  unfold State.pollDecode
  dsimp only
  split
  case isTrue => exact (hd.publish hb hc (copiedRegs_inRange _ _ hp) rfl).next hr hl (by decide) (by simp)
  case isFalse => exact hd.next hr hl (by decide) (by simp)

/-! ### The ends of the commands -/

/-- A session stays when a command of it ends (R238, R271 to R274). -/
theorem State.Valid.endsOperational (h : s.Valid) (hr : s.req = none)
    (hst : s.st ∈ [.enterOperational, .poll, .power]) (c : ResultCode) : (s.finish .operational c).Valid := by
  have hw : s.st.wired := by
    revert hst
    cases s.st <;> simp [St.wired]
  have hb : s.busy = true := by
    revert hst
    unfold State.busy
    cases s.st <;> simp [St.busy]
  have hwired : s.wired := (claimsOk_of_wired hw).mp h.claims
  have hcold : (s.finish .operational c).cold = false := State.cold_of_wired (by simp [St.wired])
  exact
    { h with
      position := rfl
      request := State.request_of_free hr
      attempts := ⟨h.attempts.1, by simp⟩
      bootPolls := ⟨h.bootPolls.1, nofun⟩
      ranges := ⟨h.ranges.1, nofun⟩
      claims := (claimsOk_of_wired (by simp [St.wired])).mpr hwired
      torn := by simp [State.busy, St.busy]
      buffers := fun hn => absurd hr hn
      asleep := fun _ => ⟨by simp, hcold⟩
      coldZero := fun hc => absurd (hcold.symm.trans hc) nofun
      explicitExit := fun hx => absurd ((h.running hb hr).implicit.symm.trans hx) nofun
      bootFlags := by
        have hfl := h.bootFlags
        revert hst hfl
        unfold bootFlagsOk
        cases s.st <;> simp }

theorem State.Valid.powerWritten (h : s.Valid) (hr : s.req = none) (hl : s.lbl = .pwWr) (target ok : Bool) :
    (s.powerWritten target ok).Valid := by
  have hc : s.cold = false := h.warm (by simp [hl, Lbl.wired])
  obtain ⟨hst, -⟩ : s.st = .power ∧ (s.curOp = 4 ∨ s.curOp = 5) := by simpa [seqOk, hl] using h.position
  have hs (b : Bool) : State.Valid { s with sleeping := b } := { h with asleep := fun _ => ⟨by simp [hst], hc⟩ }
  have hd (b : Bool) : State.Valid { s with
      sleeping := b, diag := { s.diag with pwrWrFail := s.diag.pwrWrFail || !ok } } := (hs b).flagged hc rfl rfl
  exact (hd _).endsOperational hr (by simp [hst]) _

end Sys2Proof.Machine
end

section
/-! CLOSE and the commands' starts keep the invariant, and so does every step; the reset state meets it. -/

namespace Sys2Proof.Machine

variable {s t : State}

/-! ### CLOSE (R275) -/

/-- What a CLOSE keeps until its last release: the session still stands. -/
structure State.Ending (s : State) : Prop extends s.Running where
  op : s.curOp = 6
  here : s.st = .closing
  outcome : (s.diag.blTimeout != s.diag.blBitClear) = true

/-- At one of CLOSE's releases. -/
theorem State.Ending.valid (h : s.Ending) (hl : s.lbl = .csRst ∨ s.lbl = .csInt) (hc : claimsOk s = true) :
    s.Valid :=
  have hcold : s.cold = false := by obtain hl | hl := hl <;> simp [State.cold, h.here, hl]
  { h with
    position := by obtain hl | hl := hl <;> simp [seqOk, h.here, h.op, hl]
    request := State.request_of_free h.free
    attempts := ⟨h.ceiling, by obtain hl | hl := hl <;> simp [hl]⟩
    bootPolls := ⟨h.bootCeiling, by simp [h.here]⟩
    claims := hc
    torn := by simpa [State.busy, h.here, St.busy] using h.kept
    buffers := fun hn => absurd h.free hn
    asleep := fun _ => ⟨by simp [h.here], hcold⟩
    coldZero := fun hc => absurd (hcold.symm.trans hc) nofun
    explicitExit := fun hx => absurd (h.implicit.symm.trans hx) nofun
    bootFlags := by obtain hl | hl := hl <;> simpa [bootFlagsOk, h.here, hl] using h.outcome }

/-- The session is gone, and CLOSE's end is next. -/
theorem State.Ending.closeReset (h : s.Ending) (hr : s.rstClaimed = false) (hi : s.intClaimed = false) :
    s.closeReset.Valid :=
  { h with
    sizes := by simp [State.closeReset]
    position := by simp [State.closeReset, seqOk, h.here, h.op]
    request := State.request_of_free h.free
    attempts := ⟨h.ceiling, by simp [State.closeReset]⟩
    bootPolls := ⟨h.bootCeiling, by simp [State.closeReset, h.here]⟩
    ranges := ⟨rfl, by simpa [State.closeReset, or_imp, forall_and] using ⟨h.ranges.2, rfl⟩⟩
    claims := by simp [State.closeReset, claimsOk, h.here, hr, hi]
    torn := by simp [State.closeReset, State.busy, h.here, St.busy]
    buffers := fun hn => absurd h.free hn
    asleep := nofun
    coldZero := fun _ => ⟨rfl, rfl, rfl, rfl, rfl⟩
    explicitExit := fun hx => absurd (h.implicit.symm.trans hx) nofun
    bootFlags := by simp [State.closeReset, bootFlagsOk, h.here, Diag.zero] }

theorem State.Ending.closeInterrupt (h : s.Ending) (hr : s.rstClaimed = false) : s.closeInterrupt.Valid := by
  unfold State.closeInterrupt
  split
  case isTrue hi =>
    have hu : (s.goto .csInt).Ending := { h with }
    exact hu.valid (.inr rfl) (by simp [claimsOk, h.here, hr, hi])
  case isFalse hi => exact h.closeReset hr (by simpa using hi)

/-- CLOSE's first release, of the reset line if it is claimed. -/
theorem State.Ending.firstRelease (h : s.Ending) (hi : s.intClaimed = s.intEn) :
    (if s.rstClaimed then s.goto .csRst else s.closeInterrupt).Valid := by
  split
  case isTrue hr =>
    have hu : (s.goto .csRst).Ending := { h with }
    exact hu.valid (.inl rfl) (by simp [claimsOk, h.here, hr, hi])
  case isFalse hr => exact h.closeInterrupt (by simpa using hr)

theorem State.Valid.ending (h : s.Valid) (hr : s.req = none) (hl : s.lbl = .csRst ∨ s.lbl = .csInt) : s.Ending := by
  obtain ⟨hst, hop⟩ : s.st = .closing ∧ s.curOp = 6 := by
    have hseq := h.position
    obtain hl | hl := hl <;> simpa [seqOk, hl] using hseq
  have hfl := h.bootFlags
  exact
    { h.running (by simp [State.busy, hst, St.busy]) hr with
      op := hop
      here := hst
      outcome := by obtain hl | hl := hl <;> simpa [bootFlagsOk, hst, hl] using hfl }

theorem State.Valid.rstReleased (h : s.Valid) (hr : s.req = none) (hl : s.lbl = .csRst) :
    s.releaseRst.closeInterrupt.Valid := by
  have hu : s.releaseRst.Ending := { h.ending hr (.inl hl) with }
  exact hu.closeInterrupt rfl

theorem State.Valid.intReleased (h : s.Valid) (hr : s.req = none) (hl : s.lbl = .csInt) :
    s.releaseInt.closeReset.Valid := by
  have he := h.ending hr (.inr hl)
  have hu : s.releaseInt.Ending := { he with }
  have hc : s.rstClaimed = false ∧ s.intClaimed = true := by simpa [claimsOk, he.here, hl] using h.claims
  exact hu.closeReset hc.1 rfl

/-- The end of CLOSE (R275), and of the commands that leave a session. -/
theorem State.Valid.endCommand (h : s.Valid) (hr : s.req = none) (hl : s.lbl = .done) : s.endCommand.Valid := by
  have hplace : (s.st ∈ [.enterOperational, .poll, .power] ∧ s.curOp ≠ 6) ∨ (s.st = .closing ∧ s.curOp = 6) := by
    have hseq := h.position
    simp only [seqOk, hl] at hseq
    cases hst : s.st <;> simp_all
    obtain hop | hop := hseq <;> simp [hop]
  unfold State.endCommand
  obtain ⟨hst, hop⟩ | ⟨hst, hop⟩ := hplace
  · rw [if_neg hop]
    exact h.endsOperational hr hst _
  · rw [if_pos hop]
    have hz := h.coldZero (by simp [State.cold, hst, hl])
    have hc : s.rstClaimed = false ∧ s.intClaimed = false := by simpa [claimsOk, hst, hl] using h.claims
    exact
      { h with
        position := rfl
        request := State.request_of_free hr
        attempts := ⟨h.attempts.1, by simp⟩
        bootPolls := ⟨h.bootPolls.1, nofun⟩
        ranges := ⟨h.ranges.1, nofun⟩
        claims := by simp [claimsOk, hc]
        torn := by simp [State.busy, St.busy]
        buffers := fun hn => absurd hr hn
        asleep := fun hs => absurd (h.asleep hs).2 (by simp [State.cold, hst, hl])
        coldZero := fun _ => hz
        explicitExit := fun _ => rfl
        bootFlags := by simp [bootFlagsOk, hz, Diag.zero] }

/-! ### The commands' starts -/

/-- A poll or a power command starts in a session that awaits its command (R270, R273, R274). -/
theorem State.Valid.sessionStart (h : s.Valid) (ho : s.st = .operational) {op arg : BitVec 4} {d : Diag} {st : St}
    {l : Lbl} (ht : d.blTimeout = s.diag.blTimeout) (hb : d.blBitClear = s.diag.blBitClear)
    (hst : st = .poll ∧ l = .plRd ∨ st = .power ∧ l = .pwWr) (hseq : seqOk st l op = true) :
    ({ s.latchCmd op arg with diag := d }.enter st l).Valid := by
  have hx : s.params.explicitBlExit = false := h.implicit (by simp [ho])
  have hu : ({ s.latchCmd op arg with diag := d }.enter st l).Running :=
    { h.latched (by simp [State.busy, ho, St.busy]) hx op arg with }
  have hw : s.wired := (claimsOk_of_wired (by simp [ho, St.wired])).mp h.claims
  have hfl : (d.blTimeout != d.blBitClear) = true := by
    rw [ht, hb]
    simpa [bootFlagsOk, ho] using h.bootFlags
  obtain ⟨rfl, rfl⟩ | ⟨rfl, rfl⟩ := hst <;>
    exact hu.valid_of_wired (by simp [St.wired]) rfl hseq (by simp) nofun hw (fun _ => by simp)
      (by simpa [bootFlagsOk] using hfl)

theorem State.Valid.initStart (h : s.Valid) (hst : s.st = .uninit ∨ s.st = .failed)
    (hx : s.params.explicitBlExit = false) : (s.latchCmd 1 0).initStart.Valid := by
  have hb : s.busy = false := by obtain hst | hst := hst <;> simp [State.busy, hst, St.busy]
  have hlines : s.rstClaimed = false ∧ s.intClaimed = false := by
    have hc := h.claims
    obtain hst | hst := hst <;> simpa [claimsOk, hst] using hc
  have hu : State.Starting { (s.latchCmd 1 0).sessionReset with st := .claim } :=
    { h.latched hb hx 1 0 with
      sizes := by simp
      ranges := ⟨rfl, by simpa [or_imp, forall_and] using ⟨h.ranges.1, rfl⟩⟩
      kept := by simp
      op := rfl, awake := rfl, regs := rfl, diag := rfl, frame := rfl, blbuf := rfl, hsb := rfl }
  exact hu.firstClaim rfl hlines.1 hlines.2

theorem State.Valid.closeStart (h : s.Valid) (ho : s.st = .operational) : (s.latchCmd 6 0).closeStart.Valid := by
  have hx : s.params.explicitBlExit = false := h.implicit (by simp [ho])
  have hw : s.wired := (claimsOk_of_wired (by simp [ho, St.wired])).mp h.claims
  have hu : State.Ending { s.latchCmd 6 0 with st := .closing } :=
    { h.latched (by simp [State.busy, ho, St.busy]) hx 6 0 with
      op := rfl
      here := rfl
      outcome := by simpa [bootFlagsOk, ho] using h.bootFlags }
  exact hu.firstRelease hw.2

/-! ### Every move -/

/-- Zeroing its buffer leaves a label its request, and every label where it was. -/
theorem State.labelReq_zeroed : labelReq s.zeroed = labelReq s ∧ s.zeroed.lbl = s.lbl ∧ s.zeroed.req = s.req := by
  unfold State.zeroed
  split <;> simp_all [labelReq]

theorem State.Valid.zeroed (h : s.Valid) (hr : s.req = none) : s.zeroed.Valid := by
  unfold State.zeroed
  split
  case h_1 hl => exact h.buffered hr (h.warm (by simp [hl, Lbl.wired])) _ rfl (by simp [h.sizes.2])
  case h_2 hl | h_3 hl => exact h.buffered hr (h.warm (by simp [hl, Lbl.wired])) _ (by simp [h.sizes.1]) rfl
  case h_4 hl => exact h.buffered hr (h.warm (by simp [hl, Lbl.wired])) _ rfl rfl
  case h_5 => exact h

/-- The label's own request, over its zeroed buffer (R55, R160). -/
theorem State.Valid.asks {q : Req} (h : s.Valid) (hr : s.req = none) (hq : labelReq s = some q) :
    (s.zeroed.issue q).Valid := by
  obtain ⟨hreq, hlbl, -⟩ := State.labelReq_zeroed (s := s)
  refine (h.zeroed hr).issue (hreq.trans hq) ?_ ?_ ?_ <;> rw [hlbl]
  · rintro (hl | hl) <;> simp [State.zeroed, hl]
  · intro hl
    simp [State.zeroed, hl]
  · intro hl
    simp [State.zeroed, hl]

/-- Every move of the procedures keeps the invariant. -/
theorem State.Goes.valid (hgo : s.Goes t) (h : s.Valid) : t.Valid := by
  have hu := h.answered
  cases hgo with
  | waits => exact h
  | asks hr hq => exact h.asks hr hq
  | rstClaimed hl ok => exact hu.rstClaimAnswered rfl hl ok
  | intClaimed hl ok => exact hu.intClaimAnswered rfl hl ok
  | tornDown hl => exact h.tornDown (h.free (by simp [labelReq, hl])) hl
  | asserted hl =>
    have hg : (s.gpioSet s.rstPin s.rstLvl).Valid := h.passes _ _ _
    exact hg.next (h.free (by simp [labelReq, hl])) hl (by decide) (by simp)
  | heldActive hl => exact hu.next rfl hl (by decide) (by simp)
  | released hl =>
    have hg : (s.gpioSet s.rstPin !s.rstLvl).Valid := h.passes _ _ _
    exact hg.next (h.free (by simp [labelReq, hl])) hl (by decide) (by simp)
  | heldInactive hl => exact hu.heldInactive rfl hl
  | softResetSent hl ok => exact hu.softResetWritten rfl hl ok
  | softResetWaited hl => exact hu.enterKeyUnlock rfl hl
  | keySent hl ok => exact hu.keyWritten rfl hl ok
  | keyWaited hl => exact hu.bootPoll rfl (.inl hl) (by simp [h.literals])
  | bootWaited hl => exact hu.next rfl hl (by decide) (by simp)
  | bootRead hl ok d =>
    have hf : (s.answered.fillBlbuf d).Valid := hu.buffered rfl (hu.warm (by simp [hl, Lbl.wired])) _ rfl (by simp)
    exact hf.bootStatusRead rfl hl ok
  | confirmWaited hl => exact hu.next rfl hl (by decide) (by simp)
  | confirmed hl ok d =>
    have hf : (s.answered.fillFrame d).Valid := hu.buffered rfl (hu.warm (by simp [hl, Lbl.wired])) _ (by simp) rfl
    exact hf.confirmationRead rfl hl ok
  | polled hl ok d =>
    have hf : (s.answered.fillFrame d).Valid := hu.buffered rfl (hu.warm (by simp [hl, Lbl.wired])) _ (by simp) rfl
    exact hf.pollFrameRead rfl hl ok
  | shakeRead hl ok d =>
    have hf : (s.answered.fillHsb d).Valid := hu.buffered rfl (hu.warm (by simp [hl, Lbl.wired])) _ rfl rfl
    exact hf.handshakeRead rfl hl ok
  | shakeWritten hl ok => exact hu.handshakeWritten rfl hl ok
  | shakeDelayed hl => exact hu.handshakeDelayed rfl hl
  | decoded hl => exact h.pollDecode (h.free (by simp [labelReq, hl])) hl
  | powered hl _ ok => exact hu.powerWritten rfl hl _ ok
  | rstReleased hl => exact h.rstReleased (h.free (by simp [labelReq, hl])) hl
  | intReleased hl => exact h.intReleased (h.free (by simp [labelReq, hl])) hl
  | ended hl => exact h.endCommand (h.free (by simp [labelReq, hl])) hl

theorem State.Starts.valid (hs : s.Starts t) (h : s.Valid) : t.Valid := by
  cases hs with
  | rejects code => exact h.reject code
  | inits hst hx => exact h.initStart hst hx
  | polls ho op arg own =>
    exact h.sessionStart ho rfl rfl (.inl ⟨rfl, rfl⟩) (by obtain rfl | rfl := own <;> rfl)
  | powers ho op own => exact h.sessionStart ho rfl rfl (.inr ⟨rfl, rfl⟩) (by obtain rfl | rfl := own <;> rfl)
  | closes ho => exact h.closeStart ho

/-- CFG changes only where no line is claimed and nothing is outstanding (R35). -/
theorem State.Valid.configured (h : s.Valid) (hst : s.st = .uninit ∨ s.st = .failed) {v : Nat}
    (hv : v < 2 ^ s.params.lit.hregW) : State.Valid { s with cfg := v } := by
  have hr : s.req = none := (h.idle (by obtain hst | hst := hst <;> simp [State.busy, hst, St.busy])).2
  have hc := h.claims
  exact
    { h with
      config := hv
      request := State.request_of_free hr
      claims := by obtain hst | hst := hst <;> simpa [claimsOk, hst] using hc }

/-- A hardware reset leaves the machine idle, with no session (R58, R360). -/
theorem State.hardwareReset_valid (hl : s.params.lit = .shown) : s.hardwareReset.Valid where
  literals := hl
  sizes := by simp [State.hardwareReset]
  config := Nat.two_pow_pos _
  position := rfl
  request := nofun
  attempts := ⟨Nat.zero_le _, nofun⟩
  bootPolls := ⟨Nat.zero_le _, nofun⟩
  ranges := ⟨rfl, nofun⟩
  claims := rfl
  torn := rfl
  buffers := fun hn => absurd rfl hn
  asleep := nofun
  coldZero := fun _ => ⟨rfl, rfl, rfl, rfl, rfl⟩
  explicitExit := fun _ => rfl
  bootFlags := rfl

/-- Settles O47: each kind of step, by the lemma of its move. -/
theorem stepKeepsValid : Obligations.StepKeepsValid := by
  unfold Obligations.StepKeepsValid
  intro s t h hstep
  have hu : s.quiet.taken.Valid := h.passes _ _ _
  cases step_steps hstep with
  | resets => exact State.hardwareReset_valid h.literals
  | configures v window => exact hu.configured window (field_lt _ _ _)
  | passes pulse inputs trace => exact h.passes pulse inputs trace
  | starts _ command => exact command.valid hu
  | goes inputs own => exact own.valid (h.passes _ _ _)

/-- Settles O48: the reset state is what a hardware reset of it leaves. -/
theorem resetIsValid : Obligations.ResetIsValid := by
  unfold Obligations.ResetIsValid
  exact State.hardwareReset_valid (s := State.reset) rfl

end Sys2Proof.Machine
end

section
/-! The host's register file (R31 to R35) and CFG: what a read sends and what a write does. -/

namespace Sys2Proof.Machine

variable {s t : State}

/-! ### Packed words as numbers -/

/-- A concatenation is the high part shifted over the low part. -/
theorem toNat_append_eq_add {v w : Nat} (x : BitVec v) (y : BitVec w) :
    (x ++ y).toNat = x.toNat * 2 ^ w + y.toNat := by
  rw [BitVec.toNat_append, ← Nat.shiftLeft_add_eq_or_of_lt y.isLt, Nat.shiftLeft_eq]

/-- STATUS as a number (R36). -/
theorem State.statusWord_toNat (s : State) :
    s.statusWord.toNat =
      s.st.code.toNat + 16 * s.mode.code.toNat + 128 * s.busy.toNat + 256 * s.sleeping.toNat + 512 * s.rstClaimed.toNat
        + 1024 * s.intClaimed.toNat := by
  simp only [State.statusWord, toNat_append_eq_add, BitVec.toNat_ofBool, BitVec.ofNat_eq_ofNat, BitVec.toNat_ofNat,
    Nat.zero_mod]
  omega

/-- DIAG as a number (R43). -/
theorem Diag.word_toNat (d : Diag) :
    d.word.toNat =
      d.srWrFail.toNat + 2 * d.keyWrFail.toNat + 4 * d.blRdFail.toNat + 8 * d.blTimeout.toNat + 16 * d.eoRdFail.toNat
        + 32 * d.frameRdFail.toNat + 64 * d.hsGaveUp.toNat + 128 * d.pwrWrFail.toNat + 256 * d.blBitClear.toNat := by
  simp only [Diag.word, toNat_append_eq_add, BitVec.toNat_ofBool, BitVec.ofNat_eq_ofNat, BitVec.toNat_ofNat,
    Nat.zero_mod]
  omega

/-- The words of R99's registers as numbers (R45, R46, R47, R49). -/
theorem Published.words_toNat (p : Published) (q : Point) :
    p.countWord.toNat = p.count.toNat ∧ q.strengthWord.toNat = q.s.toNat ∧
      p.outCountWord.toNat = p.ocount.toNat + 256 * p.any.toNat ∧
      p.cntWord.toNat = p.hsAttempts.toNat + 256 * p.blPolls.toNat := by
  simp only [Published.countWord, Point.strengthWord, Published.outCountWord, Published.cntWord, toNat_append_eq_add,
    BitVec.toNat_ofBool, BitVec.ofNat_eq_ofNat, BitVec.toNat_ofNat, Nat.zero_mod]
  omega

/-! ### The register map -/

/-- The map holds at a name's index the value the rules give the name (R31). -/
theorem State.content_index (s : State) (p : Published) (r : HostReg) : s.content p r.index = namedValue s p r := by
  have hw := p.words_toNat
  cases r with
  | status => exact s.statusWord_toNat
  | diag => exact s.diag.word_toNat
  | count => exact (hw p.p0).1
  | outCount => exact (hw p.p0).2.2.1
  | cnt => exact (hw p.p0).2.2.2
  | p0s => exact (hw p.p0).2.1
  | p1s => exact (hw p.p1).2.1
  | outS0 => exact (hw p.out0).2.1
  | outS1 => exact (hw p.out1).2.1
  | framebuf i =>
    have hi := i.isLt
    simp (disch := omega) only [State.content, HostReg.index, namedValue, if_neg, if_pos, be16_toNat, Nat.mul_comm 256,
      Nat.add_sub_cancel_left, Nat.le_add_right, true_and]
  | blbuf i =>
    have hi := i.isLt
    simp (disch := omega) only [State.content, HostReg.index, namedValue, if_neg, if_pos, be16_toNat, Nat.mul_comm 256,
      Nat.add_sub_cancel_left, Nat.le_add_right, true_and]
  | _ => rfl

/-- The state after a move is taken, its inputs by name. -/
theorem State.quiet_taken {a : Input} {rest : List Input} (hin : s.inputs = a :: rest) :
    s.quiet.taken = { s with touchIrq := false, inputs := rest } := by
  simp only [State.taken, State.quiet, hin, List.tail_cons]

/-- Every register's fields fit a word (R31). -/
theorem State.content_lt (s : State) (p : Published) (index : Nat) (hc : s.cfg < 2 ^ 16) :
    s.content p index < 2 ^ 16 := by
  unfold State.content
  refine iteInduction (motive := (· < 2 ^ 16)) (fun _ => hc) fun _ => ?_
  iterate 20 refine iteInduction (motive := (· < 2 ^ 16)) (fun _ => BitVec.isLt _) fun _ => ?_
  exact Nat.two_pow_pos 16

/-- A reserved index holds 0 (R33). -/
theorem State.content_reserved (s : State) (p : Published) {index : Nat} (h : 0x23 ≤ index) :
    s.content p index = 0 := by
  simp (disch := omega) only [State.content, if_neg]

/-- With R10's widths a named register reads as its value (R31). -/
theorem State.hostValue_index (s : State) (p : Published) (r : HostReg) (ha : s.params.lit.haddrW = 8)
    (hw : s.params.lit.hregW = 16) (hc : s.cfg < 2 ^ 16) : s.hostValue p r.index = namedValue s p r := by
  have hi : hasIndex s.params.lit r.index = true := by
    have hr : r.index < 2 ^ 8 := by cases r <;> simp only [HostReg.index] <;> omega
    simpa [hasIndex, ha] using hr
  rw [State.hostValue, if_pos hi, hw, field_of_lt (s.content_lt p _ hc), s.content_index]

/-- Settles O2: the values taken are `drawn`'s, and the map gives a name its value. -/
theorem hostReadMap : Obligations.HostReadMap := by
  unfold Obligations.HostReadMap
  intro s r draw rest ha hw hc hin
  refine ⟨s.drawn draw, _, fun hb => by simp [State.drawn, hb], fun hb => by simp [State.drawn, hb], rfl, ?_⟩
  rw [step_hostRead hin, State.hostRead, ← s.hostValue_index (s.drawn draw) r ha hw hc, State.quiet_taken hin]
  rfl

/-- A write to neither CMD nor CFG has no effect (R33). -/
theorem step_writeIgnored {index v : Nat} {rest : List Input} (hin : s.inputs = .hostWrite index v :: rest)
    (h : 0x02 ≤ index) : step s = .next s.quiet.taken := by
  have h0 : index ≠ 0x00 := by omega
  have h1 : index ≠ 0x01 := by omega
  simp only [step, action, hin, State.hostWrite, h0, h1, false_and, if_false, Action.run_ends]

/-- Settles O3: a reserved index holds 0, and `hostWrite` has an effect at CMD and CFG only. -/
theorem reservedIndices : Obligations.ReservedIndices := by
  unfold Obligations.ReservedIndices
  intro s index rest _
  constructor
  · intro draw hin hres
    have hv : s.quiet.taken.hostValue (s.quiet.taken.drawn draw) index = 0 := by
      simp [State.hostValue, State.content_reserved _ _ hres]
    rw [step_hostRead hin, State.hostRead, hv, State.quiet_taken hin]
    rfl
  · intro v hin hro
    rw [step_writeIgnored hin hro, State.quiet_taken hin]

/-- Settles O7: a write to CFG is `step_cfg`; every other step leaves CFG as `Moves` says, but for the reset. -/
theorem cfgWindow : Obligations.CfgWindow := by
  unfold Obligations.CfgWindow
  constructor
  · intro s v rest ha hw hv hin
    rw [step_cfg hin (by omega), hw, field_of_lt hv, State.quiet_taken hin]
  · intro s t h hne
    rcases step_cases h with ⟨rest, hin, rfl⟩ | ⟨_, _, _, _, rfl⟩ | ⟨_, _, _, _, _, _, rfl⟩ |
      ⟨_, _, _, _, _, _, hexec⟩ | ⟨v, rest, hin, hst, rfl⟩ | ⟨_, _, _, _, _, _, rfl⟩ | ⟨_, _, _, _, rfl⟩ |
      ⟨pin, edge, _, _, rfl⟩ | ⟨_, _, rfl⟩ | ⟨_, _, _, rfl⟩ | ⟨_, _, _, hgo⟩ | ⟨_, _, _, _, _, rfl⟩ | ⟨_, hgo⟩
    · exact .inr ⟨rest, hin, rfl⟩
    · -- a write to CMD: dropped, illegal, or run
      exact absurd rfl hne
    · exact absurd rfl hne
    · exact absurd (exec_moves hexec).cfg hne
    · -- a write to CFG in its window, and a write without effect
      exact .inl ⟨v, rest, hin, hst, fun hw hv => by rw [hw]; exact field_of_lt hv⟩
    · exact absurd rfl hne
    · -- a host read and an edge report
      exact absurd rfl hne
    · rw [State.pinEdge_eq] at hne
      exact absurd rfl hne
    · -- a late answer, and a tick while a request is outstanding
      exact absurd rfl hne
    · exact absurd rfl hne
    · exact absurd (proceed_moves hgo).cfg hne
    · -- an answer that fits no request
      exact absurd rfl hne
    · exact absurd (proceed_moves hgo).cfg hne

/-- Settles O4: ST by ST. -/
theorem modeAndBusy : Obligations.ModeAndBusy := by
  unfold Obligations.ModeAndBusy
  intro s
  unfold State.busy State.mode
  cases s.st <;> cases s.sleeping <;> simp [St.busy, modeOf, Mode.code]

end Sys2Proof.Machine
end

section
/-! The bus transactions and the session commands where they begin: what the step runs at a label, what the decoder
reads from a label's request, what a start latches, and how long a procedure waits. -/

namespace Sys2Proof.Machine

variable {s t : State}

/-! ### The transaction at a label -/

theorem proceed_of_fetchBus {i : Instr} (h : fetchBus s = some i) : s.proceed.run = exec i s := by
  simp only [State.proceed, h, Action.run_runs]

/-- Settles O19: `step_nil`, `step_tick` and `step_answer`, at a label whose own move is a transaction. -/
theorem stepRunsBusTransaction : Obligations.StepRunsBusTransaction := by
  unfold Obligations.StepRunsBusTransaction
  intro s i hi
  refine ⟨fun hin => ?_, fun rest hin hr => ?_, fun q a rest hin hr ha => ?_⟩
  · exact (step_nil hin).trans (proceed_of_fetchBus (s := s.quiet) hi)
  · rw [step_tick hin hr, proceed_of_fetchBus (s := s.quiet.taken) hi, State.quiet_taken hin]
  · exact (step_answer hin hr ha).trans (proceed_of_fetchBus (s := s.quiet) hi)

/-- The request `r` and the place it is sent from are what the decoder reads the instruction `i` from (R118, R127). -/
def BusReq.decodesTo (r : BusReq) (inPoll : Bool) (i : Instr) : Prop :=
  i.wf = true ∧ decodeBusReq .shown inPoll (r.header .shown) r.data = .ok i ∧ (r.read = true → r.data = [])

/-- The reads decode at any place (R120). -/
theorem memRead_decodes (inPoll : Bool) :
    (memRead .shown 1).decodesTo inPoll .hsRd ∧ (memRead .shown 16).decodesTo inPoll .blStatusRd ∧
      ∀ n : FrameReadLen, (memRead .shown n.toNat).decodesTo inPoll (.frameRd n.toNat) := by
  refine ⟨⟨rfl, ?_, fun _ => rfl⟩, ⟨rfl, ?_, fun _ => rfl⟩, fun n => ?_⟩
  · simp [decodeBusReq, BusReq.header, memRead]
  · simp [decodeBusReq, BusReq.header, memRead]
  · cases n
    · exact ⟨rfl, by simp [decodeBusReq, BusReq.header, memRead, FrameReadLen.toNat], fun _ => rfl⟩
    · exact ⟨rfl, by simp [decodeBusReq, BusReq.header, memRead, FrameReadLen.toNat], fun _ => rfl⟩

/-- The writes decode at their places: HS_WR inside a poll, the others outside (R120, R127). -/
theorem memWrite_decodes (x : Byte) :
    (memWrite .shown [x]).decodesTo true (.hsWr x) ∧
      (memWrite .shown Literals.shown.softResetCmd).decodesTo false .softResetWr ∧
      (memWrite .shown Literals.shown.keySeq).decodesTo false .keyUnlockWr ∧
      (memWrite .shown Literals.shown.sleepCmd).decodesTo false .sleepWr ∧
      (memWrite .shown Literals.shown.wakeCmd).decodesTo false .wakeWr := by
  refine ⟨⟨rfl, ?_, nofun⟩, ⟨rfl, ?_, nofun⟩, ⟨rfl, ?_, nofun⟩, ⟨rfl, ?_, nofun⟩, ⟨rfl, ?_, nofun⟩⟩ <;>
    simp [decodeBusReq, BusReq.header, memWrite]

/-- Settles O20: label by label, the place by `Valid.position`. -/
theorem fetchIsDecoded : Obligations.FetchIsDecoded := by
  unfold Obligations.FetchIsDecoded
  intro s i h hi
  suffices ∃ r : BusReq, labelReq s = some (.bus r) ∧ r.decodesTo (s.st = .poll) i by
    obtain ⟨r, hr, hwf, hd, hread⟩ := this
    exact ⟨hwf, r, hr, hd, hread⟩
  obtain ⟨hhs, hbl, hframe⟩ := memRead_decodes (s.st = .poll)
  obtain ⟨hshake, hsoft, hkey, hsleep, hwake⟩ := memWrite_decodes (flipHsBit .shown s.hsb)
  have hseq := h.position
  unfold fetchBus at hi
  unfold labelReq
  rw [h.literals] at hi ⊢
  cases hl : s.lbl <;> simp only [hl, reduceCtorEq] at hi <;> simp only [seqOk, hl] at hseq
  case hsRd => cases hi; exact ⟨_, rfl, hhs⟩
  case blRd => cases hi; exact ⟨_, rfl, hbl⟩
  case eoRd | plRd => cases hi; exact ⟨_, rfl, hframe _⟩
  case hsWr =>
    cases hi
    have hst : s.st = .poll := by simp_all
    exact ⟨_, rfl, by simpa [hst] using hshake⟩
  case srWr =>
    cases hi
    have hst : s.st = .softReset := by simp_all
    exact ⟨_, rfl, by simpa [hst] using hsoft⟩
  case kyWr =>
    cases hi
    have hst : s.st = .keyUnlock := by simp_all
    exact ⟨_, rfl, by simpa [hst] using hkey⟩
  case pwWr =>
    have hst : s.st = .power := by simp_all
    split at hi
    case isTrue h4 => cases hi; exact ⟨_, rfl, by simpa [hst, h4] using hsleep⟩
    case isFalse h4 => cases hi; exact ⟨_, rfl, by rw [if_neg h4, hst]; exact hwake⟩

/-! ### The commands' starts -/

/-- Settles O23: each command starts in OPERATIONAL by `runSession_start`. -/
theorem sessionCommandsStart : Obligations.SessionCommandsStart := by
  unfold Obligations.SessionCommandsStart
  intro s ho
  refine ⟨runSession_start ho, fun m hm => ⟨BitVec.ofNat 4 m, ?_, runSession_start ho⟩, runSession_start ho,
    runSession_start ho⟩
  rw [BitVec.toNat_ofNat]
  omega

/-- Settles O24: the three cases of `closeStart`. -/
theorem closeStarts : Obligations.CloseStarts := by
  unfold Obligations.CloseStarts
  intro s ho
  refine (runSession_start ho).trans (congrArg _ ?_)
  unfold State.closeStart State.closeInterrupt
  dsimp only [State.latchCmd_fields]
  rfl

/-! ### Waiting -/

theorem busWrite_wait {here : Bool} {d : List Byte} {k : Bool → State → State} (hh : here = true)
    (hr : s.req = some (.bus (memWrite s.params.lit d))) (hin : s.inputs = []) : busWrite here d k s = .next s := by
  simp [busWrite, hh, hr, hin]

theorem busRead_wait {here : Bool} {n : Nat} {clear : State → State} {fill : List Byte → State → State}
    {k : Bool → State → State} (hh : here = true) (hr : s.req = some (.bus (memRead s.params.lit n)))
    (hin : s.inputs = []) : busRead here n clear fill k s = .next s := by
  simp [busRead, hh, hr, hin]

theorem awaitPort_wait {r : Req} {take : Input → Option (State → State)} (hr : s.req = some r) (hin : s.inputs = []) :
    awaitPort r take s = .next s := by
  simp [awaitPort, hr, hin]

/-- A label whose request is outstanding waits unchanged while nothing is offered (R55, R324). -/
theorem State.Valid.proceed_waits (h : s.Valid) {q : Req} (hr : s.req = some q) (hin : s.inputs = []) :
    s.proceed.run = .next s := by
  have hq := h.request q hr
  have hseq := h.position
  unfold labelReq at hq
  cases hl : s.lbl <;> simp only [hl, reduceCtorEq, Option.some.injEq] at hq <;> subst hq
  case clRst | clInt | rsHold1 | rsHold2 | srWait | kyWait | blDly | eoDly | hsDly =>
    simp only [State.proceed, fetchBus, portStep, hl, Action.run_ends]
    exact awaitPort_wait hr hin
  case blRd | eoRd | plRd | hsRd =>
    simp only [State.proceed, fetchBus, hl, Action.run_runs]
    exact busRead_wait (by simp [hl]) hr hin
  case srWr | kyWr | hsWr =>
    simp only [State.proceed, fetchBus, hl, Action.run_runs]
    exact busWrite_wait (by simp [hl]) hr hin
  case pwWr =>
    have hop : s.curOp = 4 ∨ s.curOp = 5 := by simp_all [seqOk]
    by_cases h4 : s.curOp = 4
    · refine (proceed_of_fetchBus (i := .sleepWr) (by simp [fetchBus, hl, h4])).trans (busWrite_wait ?_ ?_ hin)
      · simp [hl, h4]
      · simpa [h4] using hr
    · have h5 : s.curOp = 5 := hop.resolve_left h4
      refine (proceed_of_fetchBus (i := .wakeWr) (by simp [fetchBus, hl, h5])).trans (busWrite_wait ?_ ?_ hin)
      · simp [hl, h5]
      · simpa [h5] using hr

/-- An answer goes to the procedure if anywhere. -/
theorem step_offered {a : Input} {rest : List Input} (hin : s.inputs = a :: rest) (ha : a.isAnswer = true) :
    step s = (s.quiet.offered a).run := by
  cases a <;> simp [Input.isAnswer] at ha <;> simp only [step, action, hin]

/-- Settles O32: nothing offered by `proceed_waits`; every other case takes the move off the list and no more. -/
theorem suspendedUntilAnswered : Obligations.SuspendedUntilAnswered := by
  unfold Obligations.SuspendedUntilAnswered
  constructor
  · intro s q h hr
    refine ⟨fun hin => ?_, fun rest hin => ?_, fun a rest hin ha hno => ?_⟩
    · have hu : s.quiet.Valid := h.passes _ _ _
      exact (step_nil hin).trans (hu.proceed_waits hr hin)
    · rw [← State.quiet_taken hin]
      simp [step, action, hin, hr]
    · rw [step_offered hin ha, ← State.quiet_taken hin]
      simp [State.offered, hr, hno]
  · rintro s a rest hin (rfl | ⟨ha, hl, hr⟩)
    · rw [← State.quiet_taken hin]
      simp [step, action, hin]
    · rw [step_offered hin ha, ← State.quiet_taken hin]
      simp [State.offered, hr, hl]

end Sys2Proof.Machine
end

section
/-! What a step does to RESULT, SLEEPING and DIAG (R42 to R44, R337): a procedure that goes on leaves the first two and
only adds to the third; its end, and CLOSE's clearing, say the rest. -/

namespace Sys2Proof.Machine

variable {s t u : State}

/-! ### A procedure that goes on -/

/-- DIAG's bits (R43). -/
def Diag.bits : List (Diag → Bool) :=
  [Diag.srWrFail, Diag.keyWrFail, Diag.blRdFail, Diag.blTimeout, Diag.eoRdFail, Diag.frameRdFail, Diag.hsGaveUp,
    Diag.pwrWrFail, Diag.blBitClear]

/-- Every bit of `d` that is 1 is 1 in `d'`. -/
def Diag.within (d d' : Diag) : Prop := ∀ bit ∈ Diag.bits, bit d = true → bit d' = true

theorem Diag.within_refl (d : Diag) : d.within d := fun _ _ h => h

/-- From `s` to `t` a command goes on: the command, SLEEPING and RESULT stay, no DIAG bit is cleared and BUSY holds. -/
structure State.Continues (s t : State) : Prop where
  op : t.curOp = s.curOp
  sleeping : t.sleeping = s.sleeping
  result : t.result = s.result
  diag : s.diag.within t.diag
  busy : s.busy = true → t.busy = true

theorem State.Continues.trans (h : s.Continues t) (h' : t.Continues u) : s.Continues u :=
  ⟨h'.op.trans h.op, h'.sleeping.trans h.sleeping, h'.result.trans h.result,
    fun bit hb hs => h'.diag bit hb (h.diag bit hb hs), fun hb => h'.busy (h.busy hb)⟩

theorem State.continues_self (s : State) : s.Continues s := ⟨rfl, rfl, rfl, s.diag.within_refl, id⟩

theorem State.zeroed_continues (s : State) : s.Continues s.zeroed := by
  unfold State.zeroed
  split <;> exact ⟨rfl, rfl, rfl, s.diag.within_refl, id⟩

theorem State.enterResetting_continues (s : State) : s.Continues s.enterResetting := by
  unfold State.enterResetting
  split <;> exact ⟨rfl, rfl, rfl, s.diag.within_refl, fun _ => rfl⟩

theorem State.claimInterrupt_continues (s : State) : s.Continues s.claimInterrupt := by
  unfold State.claimInterrupt
  split
  · exact ⟨rfl, rfl, rfl, s.diag.within_refl, id⟩
  · exact s.enterResetting_continues

theorem State.bootStatusRead_continues (s : State) (ok : Bool) : s.Continues (s.bootStatusRead ok) := by
  unfold State.bootStatusRead
  dsimp only
  split
  case isTrue =>
    split
    case isTrue => exact ⟨rfl, rfl, rfl, by simp +contextual [Diag.within, Diag.bits, State.enterEnterOperational], fun _ => rfl⟩
    case isFalse => exact ⟨rfl, rfl, rfl, by simp +contextual [Diag.within, Diag.bits, State.nextBootPoll], id⟩
  case isFalse => exact ⟨rfl, rfl, rfl, by simp +contextual [Diag.within, Diag.bits, State.enterEnterOperational], fun _ => rfl⟩

theorem State.handshakeDelayed_continues (s : State) : s.Continues s.handshakeDelayed := by
  unfold State.handshakeDelayed
  split
  · exact ⟨rfl, rfl, rfl, by simp +contextual [Diag.within, Diag.bits, State.endHandshake], id⟩
  · exact ⟨rfl, rfl, rfl, s.diag.within_refl, id⟩

theorem State.pollDecode_continues (s : State) : s.Continues s.pollDecode := by
  unfold State.pollDecode
  dsimp only
  split <;> exact ⟨rfl, rfl, rfl, s.diag.within_refl, id⟩

/-- CLOSE, before and at its clearing (R275): it goes on, or the session's flags go and its end is next. -/
structure State.Cleared (s t : State) : Prop where
  op : t.curOp = s.curOp
  here : t.st = s.st
  result : t.result = s.result
  sleeping : t.sleeping = false
  diag : t.diag = Diag.zero

theorem State.closeReset_cleared (s : State) : s.Cleared s.closeReset := ⟨rfl, rfl, rfl, rfl, rfl⟩

theorem State.closeInterrupt_clears (s : State) : s.Continues s.closeInterrupt ∨ s.Cleared s.closeInterrupt := by
  unfold State.closeInterrupt
  split
  · exact .inl ⟨rfl, rfl, rfl, s.diag.within_refl, id⟩
  · exact .inr s.closeReset_cleared

/-- INIT's failure (R232): its release is next, or it ends. -/
theorem State.initFail_ends (s : State) : s.Continues s.initFail ∨ s.initFail = s.finish .failed .errInit := by
  unfold State.initFail
  split
  · exact .inl ⟨rfl, rfl, rfl, s.diag.within_refl, id⟩
  · exact .inr rfl

/-! ### A move of the TCB's own -/

/-- A move of the TCB's own goes on with its procedure, ends it, or clears the session. -/
inductive State.Turns (s t : State) : Prop where
  | continues (go : s.Continues t)
  | fails (here : s.lbl ∈ [.clRst, .clInt, .tdRst]) (before : State) (go : s.Continues before)
    (after : t = before.finish .failed .errInit)
  | powers (here : s.lbl = .pwWr) (op : s.curOp = 4 ∨ s.curOp = 5) (ok : Bool)
    (after : t = s.answered.powerWritten (s.curOp = 4) ok)
  | clears (here : s.lbl = .csRst ∨ s.lbl = .csInt) (after : s.Cleared t)
  | ends (here : s.lbl = .done) (after : t = s.endCommand)

theorem State.initFail_turns (hl : s.lbl ∈ [.clRst, .clInt, .tdRst]) : s.Turns s.answered.initFail := by
  have hc : s.Continues s.answered := ⟨rfl, rfl, rfl, Diag.within_refl _, id⟩
  obtain h | h := s.answered.initFail_ends
  · exact .continues (hc.trans h)
  · exact .fails hl s.answered hc h

theorem State.Goes.turns (h : s.Goes t) : s.Turns t := by
  cases h with
  | waits => exact .continues s.continues_self
  | asks => exact .continues (s.zeroed_continues.trans ⟨rfl, rfl, rfl, Diag.within_refl _, id⟩)
  | rstClaimed hl ok =>
    cases ok with
    | true =>
      have hc : s.Continues { s.answered with rstClaimed := true } := ⟨rfl, rfl, rfl, Diag.within_refl _, id⟩
      exact .continues (hc.trans (State.claimInterrupt_continues _))
    | false => exact State.initFail_turns (by simp [hl])
  | intClaimed hl ok =>
    cases ok with
    | true =>
      have hc : s.Continues { s.answered with intClaimed := true } := ⟨rfl, rfl, rfl, Diag.within_refl _, id⟩
      exact .continues (hc.trans (State.enterResetting_continues _))
    | false => exact State.initFail_turns (by simp [hl])
  | tornDown hl => exact .fails (by simp [hl]) s.releaseRst ⟨rfl, rfl, rfl, Diag.within_refl _, id⟩ rfl
  | asserted | heldActive | released | bootWaited | confirmWaited =>
    exact .continues ⟨rfl, rfl, rfl, Diag.within_refl _, id⟩
  | heldInactive | softResetWaited | keyWaited => exact .continues ⟨rfl, rfl, rfl, Diag.within_refl _, fun _ => rfl⟩
  | softResetSent | keySent | confirmed | polled =>
    exact .continues ⟨rfl, rfl, rfl, by
      simp +contextual [Diag.within, Diag.bits, State.softResetWritten, State.keyWritten, State.confirmationRead,
        State.pollFrameRead, State.startHandshake], id⟩
  | bootRead hl ok d =>
    have hc : s.Continues (s.answered.fillBlbuf d) := ⟨rfl, rfl, rfl, Diag.within_refl _, id⟩
    exact .continues (hc.trans (State.bootStatusRead_continues _ ok))
  | shakeRead hl ok d => cases ok <;> exact .continues ⟨rfl, rfl, rfl, Diag.within_refl _, id⟩
  | shakeWritten hl ok => cases ok <;> exact .continues ⟨rfl, rfl, rfl, Diag.within_refl _, id⟩
  | shakeDelayed hl =>
    have hc : s.Continues s.answered := ⟨rfl, rfl, rfl, Diag.within_refl _, id⟩
    exact .continues (hc.trans (State.handshakeDelayed_continues _))
  | decoded => exact .continues s.pollDecode_continues
  | powered hl op ok => exact .powers hl op ok rfl
  | rstReleased hl =>
    have hc : s.Continues s.releaseRst := ⟨rfl, rfl, rfl, Diag.within_refl _, id⟩
    obtain h | h := s.releaseRst.closeInterrupt_clears
    · exact .continues (hc.trans h)
    · exact .clears (.inl hl) ⟨h.op, h.here, h.result, h.sleeping, h.diag⟩
  | intReleased hl => exact .clears (.inr hl) ⟨rfl, rfl, rfl, rfl, rfl⟩
  | ended hl => exact .ends hl rfl

/-! ### A command's start -/

theorem State.initStart_continues (s : State) :
    State.Continues { s.sessionReset with st := .claim } s.initStart := by
  unfold State.initStart
  dsimp only
  split
  · exact ⟨rfl, rfl, rfl, Diag.within_refl _, id⟩
  · exact State.claimInterrupt_continues _

theorem State.closeStart_clears (s : State) :
    State.Continues { s with st := .closing } s.closeStart ∨ State.Cleared { s with st := .closing } s.closeStart := by
  unfold State.closeStart
  dsimp only
  split
  · exact .inl ⟨rfl, rfl, rfl, Diag.within_refl _, id⟩
  · exact State.closeInterrupt_clears _

/-- A command's start leaves RESULT; a rejection is no start (R114, R115). -/
theorem State.Starts.result_or_idle (h : s.Starts t) : t.result = s.result ∨ t.busy = s.busy := by
  cases h with
  | rejects => exact .inr rfl
  | inits => exact .inl (State.initStart_continues _).result
  | polls | powers => exact .inl rfl
  | closes =>
    refine .inl ?_
    obtain hc | hc := (s.latchCmd 6 0).closeStart_clears
    · exact hc.result
    · exact hc.result

/-! ### RESULT -/

theorem State.endCommand_idle (s : State) : s.endCommand.busy = false := by
  unfold State.endCommand State.busy
  simp only [State.finish_fields]
  split <;> rfl

/-- RESULT is written only as BUSY is 0 afterwards (R42, R322). -/
theorem step_result (h : step s = .next t) (hne : t.result ≠ s.result) : t.busy = false := by
  cases step_steps h with
  | resets => rfl
  | configures => exact absurd rfl hne
  | passes => exact absurd rfl hne
  | starts idle command =>
    obtain hr | hb := command.result_or_idle
    · exact absurd hr hne
    · exact hb.trans idle
  | goes _ own =>
    cases own.turns with
    | continues go => exact absurd go.result hne
    | fails _ _ _ after => subst after; rfl
    | powers _ _ _ after => subst after; rfl
    | clears _ after => exact absurd after.result hne
    | ends _ after => subst after; exact State.endCommand_idle _

/-- The codes a command of each opcode ends with, and where (R320 to R322). -/
def endsAs (op : BitVec 4) (st : St) (code : ResultCode) : Prop :=
  (op = 1 → (st = .operational ∧ code = .ok) ∨ (st = .failed ∧ code = .errInit)) ∧
    (op = 2 ∨ op = 3 → st = .operational ∧ code = .ok) ∧
    (op = 4 ∨ op = 5 → st = .operational ∧ (code = .ok ∨ code = .errBus)) ∧
    (op = 6 → st = .uninit ∧ code = .ok)

/-- A move of the TCB's own that ends a running command keeps its opcode and ends it as it should. -/
theorem State.Turns.endsAs (h : s.Turns t) (hv : s.Valid) (hb : s.busy = true) (ht : t.busy = false) :
    t.curOp = s.curOp ∧ endsAs s.curOp t.st t.result := by
  have hseq := hv.position
  cases h with
  | continues go => exact absurd ((go.busy hb).symm.trans ht) nofun
  | fails here before go after =>
    have hop : s.curOp = 1 := by
      simp only [List.mem_cons, List.not_mem_nil, or_false] at here
      obtain hl | hl | hl := here <;> simp_all [seqOk]
    subst after
    exact ⟨go.op, by simp [Machine.endsAs, hop]⟩
  | powers _ op ok after =>
    subst after
    refine ⟨rfl, ?_⟩
    obtain hop | hop := op <;> cases ok <;> simp [Machine.endsAs, hop, State.powerWritten]
  | clears _ after => exact absurd (ht.symm.trans ((State.busy_congr after.here).trans hb)) nofun
  | ends here after =>
    subst after
    refine ⟨rfl, ?_⟩
    have hop : s.curOp = 1 ∨ s.curOp = 2 ∨ s.curOp = 3 ∨ s.curOp = 6 := by
      simp only [seqOk, here] at hseq
      simp at hseq
      tauto
    obtain hop | hop | hop | hop := hop <;> simp [Machine.endsAs, hop, State.endCommand]

/-- Settles O12: `step_result`, and the ends of a procedure by `Turns.endsAs`. -/
theorem commandEndCodes : Obligations.CommandEndCodes := by
  unfold Obligations.CommandEndCodes
  refine ⟨fun s t => step_result, fun s t h hstep hb ht hno => ?_⟩
  obtain ⟨hlbl, hreq⟩ := (stepKeepsValid s t h hstep).idle ht
  refine ⟨hlbl, hreq, ?_⟩
  cases step_steps hstep with
  | resets rest move => exact absurd move (hno rest)
  | configures v window => obtain hst | hst := window <;> simp [State.busy, hst, St.busy] at hb
  | passes => exact absurd (hb.symm.trans ht) nofun
  | starts idle => exact absurd (hb.symm.trans idle) nofun
  | goes inputs own => exact own.turns.endsAs (h.passes _ _ _) hb ht

/-! ### SLEEPING -/

/-- CLOSE's clearing leaves the command and its state (R275). -/
theorem State.Cleared.closing (h : s.Cleared t) (hv : s.Valid) (hl : s.lbl = .csRst ∨ s.lbl = .csInt) :
    t.st = .closing ∧ t.curOp = 6 := by
  have hseq := hv.position
  obtain ⟨hst, hop⟩ : s.st = .closing ∧ s.curOp = 6 := by obtain hl | hl := hl <;> simpa [seqOk, hl] using hseq
  exact ⟨h.here.trans hst, h.op.trans hop⟩

theorem State.powerWritten_sleeping (target ok : Bool) (s : State) :
    (s.powerWritten target ok).sleeping = target ∨ (s.powerWritten target ok).sleeping = s.sleeping := by
  simp only [State.powerWritten, State.finish_fields]
  split
  · exact .inl rfl
  · exact .inr rfl

/-- Settles O53: each kind of step that can change SLEEPING. -/
theorem sleepingChanges : Obligations.SleepingChanges := by
  unfold Obligations.SleepingChanges
  intro s t h hstep hne
  cases step_steps hstep with
  | resets rest move => exact ⟨nofun, fun _ => .inr (.inr ⟨rest, move⟩)⟩
  | configures => exact absurd rfl hne
  | passes => exact absurd rfl hne
  | starts idle command =>
    cases command with
    | rejects => exact absurd rfl hne
    | inits hst =>
      have hoff : s.sleeping = false := h.awake (by obtain hst | hst := hst <;> simp_all [State.cold])
      exact absurd ((State.initStart_continues _).sleeping.trans hoff.symm) hne
    | polls | powers => exact absurd rfl hne
    | closes =>
      obtain hc | hc := (s.quiet.taken.latchCmd 6 0).closeStart_clears
      · exact absurd hc.sleeping hne
      · exact ⟨fun hs => absurd (hs.symm.trans hc.sleeping) nofun, fun _ => .inr (.inl ⟨hc.here, hc.op⟩)⟩
  | goes inputs own =>
    cases own.turns with
    | continues go => exact absurd go.sleeping hne
    | fails _ _ go after => subst after; exact absurd go.sleeping hne
    | powers hl op ok after =>
      subst after
      have hs := (State.powerWritten_sleeping (s.curOp = 4) ok _).resolve_right hne
      refine ⟨fun ht => ⟨hl, by simpa using hs.symm.trans ht⟩, fun ht => .inl ⟨hl, ?_⟩⟩
      exact op.resolve_left (by simpa using hs.symm.trans ht)
    | clears hl after =>
      exact ⟨fun hs => absurd (hs.symm.trans after.sleeping) nofun,
        fun _ => .inr (.inl (after.closing (h.passes _ _ _) hl))⟩
    | ends _ after => subst after; exact absurd rfl hne

/-! ### DIAG -/

/-- A step clears no DIAG bit, or clears all in a CLOSE or at a reset, or clears a starting command's own (R44). -/
theorem step_diag (h : s.Valid) (hstep : step s = .next t) :
    s.diag.within t.diag ∨
      (t.diag = Diag.zero ∧ ((t.st = .closing ∧ t.curOp = 6) ∨ ∃ rest, s.inputs = .hardwareReset :: rest)) ∨
      (s.st = .operational ∧ t.st = .poll ∧ t.diag = s.diag.clearPoll) ∨
      (s.st = .operational ∧ t.st = .power ∧ t.diag = s.diag.clearPower) := by
  cases step_steps hstep with
  | resets rest move => exact .inr (.inl ⟨rfl, .inr ⟨rest, move⟩⟩)
  | configures => exact .inl s.diag.within_refl
  | passes => exact .inl s.diag.within_refl
  | starts idle command =>
    cases command with
    | rejects => exact .inl s.diag.within_refl
    | inits hst =>
      have hzero : s.diag = Diag.zero := (h.coldZero (by obtain hst | hst := hst <;> simp_all [State.cold])).2.1
      exact .inl (hzero ▸ (State.initStart_continues _).diag)
    | polls session => exact .inr (.inr (.inl ⟨session, rfl, rfl⟩))
    | powers session => exact .inr (.inr (.inr ⟨session, rfl, rfl⟩))
    | closes =>
      obtain hc | hc := (s.quiet.taken.latchCmd 6 0).closeStart_clears
      · exact .inl hc.diag
      · exact .inr (.inl ⟨hc.diag, .inl ⟨hc.here, hc.op⟩⟩)
  | goes inputs own =>
    cases own.turns with
    | continues go => exact .inl go.diag
    | fails _ _ go after => subst after; exact .inl go.diag
    | powers _ _ ok after =>
      subst after
      exact .inl (by simp +contextual [Diag.within, Diag.bits, State.powerWritten])
    | clears hl after => exact .inr (.inl ⟨after.diag, .inl (after.closing (h.passes _ _ _) hl)⟩)
    | ends _ after => subst after; exact .inl s.diag.within_refl

/-- Settles O54: of `step_diag`'s cases, the first clears no bit and the last two clear their own only. -/
theorem diagCleared : Obligations.DiagCleared := by
  unfold Obligations.DiagCleared
  intro s t h hstep
  dsimp only
  rcases step_diag h hstep with hw | hall | ⟨hs, ht, hd⟩ | ⟨hs, ht, hd⟩
  · have hno : ∀ bit ∈ Diag.bits, ¬ (bit s.diag = true ∧ bit t.diag = false) :=
      fun bit hb hc => absurd ((hw bit hb hc.1).symm.trans hc.2) nofun
    simp only [Diag.bits, List.mem_cons, List.not_mem_nil, or_false, forall_eq_or_imp, forall_eq] at hno
    exact ⟨by simp only [hno, or_self, false_imp_iff], by simp only [hno, or_self, false_imp_iff],
      by simp only [hno, false_imp_iff]⟩
  · exact ⟨fun _ => hall, fun _ => .inl hall, fun _ => .inl hall⟩
  · refine ⟨fun hc => ?_, fun _ => .inr ⟨hs, ht, hd⟩, fun hc => ?_⟩ <;> simp_all [Diag.clearPoll]
  · refine ⟨fun hc => ?_, fun hc => ?_, fun _ => .inr ⟨hs, ht, hd⟩⟩ <;> simp_all [Diag.clearPower]

end Sys2Proof.Machine
end

section
/-! The answers to the read transactions (R82, R83, R160 to R162): what BL_STATUS_RD, FRAME_RD and HS_RD leave. -/

namespace Sys2Proof.Machine

variable {s : State}

/-! ### What is shared by the three -/

/-- The port's contract on a read response, as the statements give it (R82). -/
theorem legalRead_of_length {n : Nat} {ok : Bool} {d : List Byte} (hn : d.length ≤ n) (hok : ok = true → d.length = n) :
    legalRead n ok d = true := by
  cases ok <;> simp_all [legalRead]

/-- A read with R10's parameters, at its place with its request outstanding, takes a legal answer. -/
theorem busRead_answer_shown {here : Bool} {n : Nat} {clear : State → State} {fill : List Byte → State → State}
    {k : Bool → State → State} {ok : Bool} {d : List Byte} {rest : List Input} (hh : here = true)
    (hlit : s.params.lit = .shown) (hr : s.req = some (.bus (memRead .shown n)))
    (hin : s.inputs = .readAnswer ok d :: rest) (hn : d.length ≤ n) (hok : ok = true → d.length = n) :
    busRead here n clear fill k s = .next (k ok (fill d s.answered)) := by
  subst hh
  exact busRead_answer (hlit.symm ▸ hr) hin (legalRead_of_length hn hok)

/-- The state in which an answer has been taken, its inputs by name. -/
theorem State.answered_eq {a : Input} {rest : List Input} (hin : s.inputs = a :: rest) :
    s.answered = { s with req := none, inputs := rest } := by
  simp only [State.answered, hin, List.tail_cons]

/-! ### BL_STATUS_RD -/

/-- The bootloader-busy test as arithmetic: bit 4 of byte 1 (R174). -/
theorem blBusy_shown (b : List Byte) : blBusy .shown b = decide ((b.getD 1 0).toNat / 16 % 2 = 1) := by
  simp only [blBusy, Literals.shown_sizes, BitVec.getLsbD, Nat.testBit_eq_decide_div_mod_eq, Nat.reducePow]

/-- A poll that reads the busy bit clear ends the loop with BL_BIT_CLEAR (R236, R237). -/
theorem State.bootStatusRead_clear (ok : Bool) (h : blBusy s.params.lit s.blbuf = false) :
    s.bootStatusRead ok =
      { s with
        st := .enterOperational, lbl := .eoDly, frame := List.replicate s.params.lit.frameLayoutLen 0
        diag := { s.diag with blRdFail := s.diag.blRdFail || !ok, blBitClear := true } } := by
  simp only [State.bootStatusRead, h, Bool.false_eq_true, if_false]
  rfl

/-- With the bit set, the last poll ends the loop with BL_TIMEOUT (R236, R237). -/
theorem State.bootStatusRead_timeout (ok : Bool) (h : blBusy s.params.lit s.blbuf = true)
    (hbi : s.bi = s.params.lit.blMaxPolls) :
    s.bootStatusRead ok =
      { s with
        st := .enterOperational, lbl := .eoDly, frame := List.replicate s.params.lit.frameLayoutLen 0
        diag := { s.diag with blRdFail := s.diag.blRdFail || !ok, blTimeout := true } } := by
  simp only [State.bootStatusRead, h, hbi, if_true]
  rfl

/-- With the bit set, any other poll is followed by the next (R236). -/
theorem State.bootStatusRead_again (ok : Bool) (h : blBusy s.params.lit s.blbuf = true)
    (hbi : s.bi ≠ s.params.lit.blMaxPolls) :
    s.bootStatusRead ok = State.nextBootPoll { s with diag := { s.diag with blRdFail := s.diag.blRdFail || !ok } } := by
  simp only [State.bootStatusRead, h, hbi, if_true, if_false]

/-- Settles O27: the answer's bytes stand in BLBUF, and the busy bit and BI choose among the poll's three ends. -/
theorem bootStatusAnswered : Obligations.BootStatusAnswered := by
  unfold Obligations.BootStatusAnswered
  intro s ok d rest hlit hl hr hin hn hok hbuf u
  have hrun : exec .blStatusRd s = .next ((s.answered.fillBlbuf d).bootStatusRead ok) := by
    have hn16 : s.params.lit.blFrameLen = 16 := by simp [hlit]
    exact busRead_answer_shown (by simp [hl]) hlit (hn16.symm ▸ hr) hin (hn16.symm ▸ hn) (hn16.symm ▸ hok)
  have hfill : s.answered.fillBlbuf d = { s with req := none, inputs := rest, blbuf := readBuffer 16 d } := by
    rw [State.answered_eq hin, State.fillBlbuf, hbuf, latch_zero]
  have hbusy : blBusy (s.answered.fillBlbuf d).params.lit (s.answered.fillBlbuf d).blbuf =
      decide ((d.getD 1 0).toNat / 16 % 2 = 1) := by
    rw [hfill, hlit, blBusy_shown, readBuffer_getD _ _ _ (by decide)]
  refine ⟨fun hb => ?_, fun hb hbi => ?_, fun hb hbi => ?_⟩
  · rw [hb] at hbusy
    rw [hrun, State.bootStatusRead_clear ok hbusy, hfill, hlit]
    rfl
  · rw [hb] at hbusy
    rw [hrun, State.bootStatusRead_timeout ok hbusy (by simp [hlit, hbi]), hfill, hlit]
    rfl
  · rw [hb] at hbusy
    rw [hrun, State.bootStatusRead_again ok hbusy (by simp [hlit]; omega), hfill]
    exact ⟨BitVec.ofNat 4 (s.bi + 1), by rw [BitVec.toNat_ofNat]; omega, rfl⟩

/-! ### FRAME_RD and HS_RD -/

theorem State.frameRead_of_eoRd (s : State) (ok : Bool) (hl : s.lbl = .eoRd) :
    s.frameRead ok = s.confirmationRead ok :=
  if_pos hl

theorem State.frameRead_of_plRd (s : State) (ok : Bool) (hl : s.lbl = .plRd) :
    s.frameRead ok = s.pollFrameRead ok :=
  if_neg (by simp [hl])

/-- Settles O28: the answer's bytes stand in FRAME, and the label says what follows. -/
theorem frameReadAnswered : Obligations.FrameReadAnswered := by
  unfold Obligations.FrameReadAnswered
  intro s ok d rest len hlit hlen hr hin hn hok hbuf
  have hrun (hl : s.lbl = .eoRd ∨ s.lbl = .plRd) :
      exec (.frameRd len) s = .next ((s.answered.fillFrame d).frameRead ok) :=
    busRead_answer_shown (by simp [hl, hlen]) hlit hr hin hn hok
  have hfill : s.answered.fillFrame d = { s with req := none, inputs := rest, frame := readBuffer 14 d } := by
    rw [State.answered_eq hin, State.fillFrame, hbuf, latch_zero]
  refine ⟨fun h13 => ?_, fun hl => ?_, fun hl => ?_⟩
  · have hshort : d.length ≤ 13 := h13 ▸ hn
    simp [readBuffer, List.getElem?_eq_none hshort]
  · rw [hrun (.inl hl), (s.answered.fillFrame d).frameRead_of_eoRd ok hl, hfill]
    rfl
  · rw [hrun (.inr hl), (s.answered.fillFrame d).frameRead_of_plRd ok hl, hfill]
    rfl

/-- Settles O29: the delivered byte stands in HSB, and `ok` says what follows. -/
theorem handshakeReadAnswered : Obligations.HandshakeReadAnswered := by
  unfold Obligations.HandshakeReadAnswered
  intro s ok d rest hlit hl hr hin hn hok hbuf
  have hrun : exec .hsRd s = .next ((s.answered.fillHsb d).handshakeRead ok) :=
    busRead_answer_shown (by simp [hl]) hlit hr hin hn hok
  have hfill : s.answered.fillHsb d = { s with req := none, inputs := rest, hsb := d.headD 0 } := by
    rw [State.answered_eq hin, State.fillHsb, hbuf]
  rw [hrun, hfill]
  cases ok <;> rfl

end Sys2Proof.Machine
end

section
/-! What a step sends (R13, R88, R93, R118, R330): the request of its label, or an event that is no request. -/

namespace Sys2Proof.Machine

variable {s t : State}

/-! ### The events of a step -/

/-- Is this event a request, which an answer follows (R55)? -/
def Event.isRequest : Event → Bool
  | .bus _ | .delay _ | .gpioClaim _ _ => true
  | .gpioSet _ _ | .gpioRelease _ | .touchIrq | .hostValue _ _ => false

theorem Req.event_isRequest (q : Req) : q.event.isRequest = true := by
  cases q <;> rfl

theorem Req.event_injective : Function.Injective Req.event := by
  intro q q' h
  cases q <;> cases q' <;> simp_all [Req.event]

/-- After the trace `l`: nothing is sent, or the request `own` is, or an event that is no request. -/
inductive Sends (own : Option Req) (l : List Event) : List Event → Prop where
  | nothing : Sends own l l
  | request {q : Req} (h : own = some q) : Sends own l (q.event :: l)
  | posts {e : Event} (h : e.isRequest = false) : Sends own l (e :: l)

theorem State.Silent.sends (h : s.Silent t) (own : Option Req) : Sends own s.trace t.trace := by
  rw [h.trace]
  exact .nothing

/-- A command's start sends nothing yet. -/
theorem State.Starts.silent (h : s.Starts t) : s.Silent t := by
  have hlatch (op arg : BitVec 4) : s.Silent (s.latchCmd op arg) := ⟨rfl, rfl, rfl, rfl, rfl⟩
  cases h with
  | rejects | polls | powers => exact ⟨rfl, rfl, rfl, rfl, rfl⟩
  | inits => exact (hlatch 1 0).trans (State.initStart_silent _)
  | closes => exact (hlatch 6 0).trans (State.closeStart_silent _)

theorem State.zeroed_silent (s : State) : s.Silent s.zeroed := by
  unfold State.zeroed
  split <;> exact ⟨rfl, rfl, rfl, rfl, rfl⟩

/-- The TCB's own move sends its label's request where it asks, and one GPIO event at a set or a release. -/
theorem State.Goes.sends (h : s.Goes t) : Sends (labelReq s) s.trace t.trace := by
  cases h with
  | asks _ own =>
    simp only [State.issue_fields, s.zeroed_silent.trace]
    exact .request own
  | rstClaimed _ ok => exact (State.rstClaimAnswered_silent ok s.answered).sends _
  | intClaimed _ ok => exact (State.intClaimAnswered_silent ok s.answered).sends _
  | bootRead _ ok d => exact (State.bootStatusRead_silent ok (s.answered.fillBlbuf d)).sends _
  | shakeRead _ ok d => exact (State.handshakeRead_silent ok (s.answered.fillHsb d)).sends _
  | shakeWritten _ ok => exact (State.handshakeWritten_silent ok s.answered).sends _
  | shakeDelayed => exact (State.handshakeDelayed_silent s.answered).sends _
  | decoded => exact s.pollDecode_silent.sends _
  | tornDown | asserted | released | intReleased => exact .posts rfl
  | rstReleased =>
    rw [(State.closeInterrupt_silent s.releaseRst).trace]
    exact .posts rfl
  | _ => exact .nothing

theorem step_sends (h : step s = .next t) : Sends (labelReq s) s.trace t.trace := by
  rcases step_cases h with ⟨_, _, rfl⟩ | ⟨_, _, _, _, rfl⟩ | ⟨_, _, _, _, _, _, rfl⟩ | ⟨_, _, _, _, hb, hd, hexec⟩ |
    ⟨_, _, _, _, rfl⟩ | ⟨_, _, _, _, _, _, rfl⟩ | ⟨_, _, _, _, rfl⟩ | ⟨pin, edge, _, _, rfl⟩ | ⟨_, _, rfl⟩ |
    ⟨_, _, _, rfl⟩ | ⟨_, _, _, hgo⟩ | ⟨_, _, _, _, _, rfl⟩ | ⟨_, hgo⟩
  · -- the hardware reset
    exact .nothing
  · -- a write to CMD: dropped, illegal, or run
    exact .nothing
  · exact .nothing
  · exact (command_starts (s := s.quiet.taken) hd hb hexec).silent.sends _
  · -- a write to CFG in its window, and a write without effect
    exact .nothing
  · exact .nothing
  · -- a host read and an edge report
    exact .posts rfl
  · unfold State.pinEdge
    split
    · exact .posts rfl
    · exact .nothing
  · -- a late answer, and a tick while a request is outstanding
    exact .nothing
  · exact .nothing
  · exact (proceed_goes hgo).sends
  · -- an answer that fits no request
    exact .nothing
  · exact (proceed_goes hgo).sends

/-- The request that is the event sent is the label's own. -/
theorem Sends.own_eq {own : Option Req} {l l' : List Event} {q : Req} (h : Sends own l l')
    (hl : l' = q.event :: l) : own = some q := by
  cases h with
  | nothing => exact absurd hl.symm (List.cons_ne_self _ _)
  | request hq => rw [hq, Req.event_injective (List.head_eq_of_cons_eq hl)]
  | posts he =>
    rw [List.head_eq_of_cons_eq hl, q.event_isRequest] at he
    cases he

/-! ### The requests of the labels -/

/-- The bus requests of the labels, with R10's parameters (R88, R120). -/
theorem labelReq_bus {r : BusReq} (hlit : s.params.lit = .shown) (h : labelReq s = some (.bus r)) :
    (s.lbl = .srWr ∧ r = memWrite .shown Literals.shown.softResetCmd) ∨
    (s.lbl = .kyWr ∧ r = memWrite .shown Literals.shown.keySeq) ∨
    (s.lbl = .blRd ∧ r = memRead .shown 16) ∨
    ((s.lbl = .eoRd ∨ s.lbl = .plRd) ∧ (r = memRead .shown 14 ∨ r = memRead .shown 13)) ∨
    (s.lbl = .hsRd ∧ r = memRead .shown 1) ∨
    (s.lbl = .hsWr ∧ r = memWrite .shown [s.hsb ^^^ 0x80]) ∨
    (s.lbl = .pwWr ∧ (r = memWrite .shown Literals.shown.sleepCmd ∨ r = memWrite .shown Literals.shown.wakeCmd)) := by
  unfold labelReq at h
  rw [hlit] at h
  cases hl : s.lbl <;> simp only [hl, reduceCtorEq, Option.some.injEq, Req.bus.injEq] at h
  case eoRd | plRd => cases hf : s.params.frameReadLen <;> simp [hf, FrameReadLen.toNat] at h <;> simp [h]
  case pwWr => split at h <;> simp [← h]
  all_goals subst h; simp [flipHsBit_shown]

/-- The delays of the labels, with R10's parameters (R330). -/
theorem labelReq_delay {ms : Byte} (hlit : s.params.lit = .shown) (h : labelReq s = some (.delay ms)) :
    ms ∈ [(5 : Byte), 10, 20, 50, 88] := by
  unfold labelReq at h
  rw [hlit] at h
  cases hl : s.lbl <;> simp only [hl, reduceCtorEq, Option.some.injEq, Req.delay.injEq] at h <;> subst h <;> simp

/-- A read's header word by its length (R118, R120). -/
@[simp] theorem memRead_header (n : Nat) : (memRead .shown n).header .shown = 0xA40000 + n % 256 := by
  simp [BusReq.header, memRead, packHeader]

/-- A write's header word by its payload's length (R118, R120). -/
@[simp] theorem memWrite_header (d : List Byte) : (memWrite .shown d).header .shown = 0x240000 + d.length % 256 := by
  simp [BusReq.header, memWrite, packHeader]

/-- Settles O51: a bus request or a delay that is sent is the label's own, and the labels' are listed. -/
theorem onlyListedRequests : Obligations.OnlyListedRequests := by
  unfold Obligations.OnlyListedRequests
  intro s t e h hstep ht
  refine ⟨fun r he => ?_, fun ms he => ?_⟩
  · subst he
    rcases labelReq_bus h.literals ((step_sends hstep).own_eq (q := .bus r) ht) with ⟨-, rfl⟩ | ⟨-, rfl⟩ | ⟨-, rfl⟩ |
      ⟨-, rfl | rfl⟩ | ⟨-, rfl⟩ | ⟨-, rfl⟩ | ⟨-, rfl | rfl⟩ <;>
      exact ⟨by simp [issuable, memWrite], by simp⟩
  · subst he
    exact labelReq_delay h.literals ((step_sends hstep).own_eq (q := .delay ms) ht)

/-- Settles O52: of the labels' requests, HS_RD's header is one label's and the one-byte write's two labels'. -/
theorem oneByteTransactions : Obligations.OneByteTransactions := by
  unfold Obligations.OneByteTransactions
  intro s t r h hstep ht
  have hseq := h.position
  rcases labelReq_bus h.literals ((step_sends hstep).own_eq (q := .bus r) ht) with ⟨hl, rfl⟩ | ⟨-, rfl⟩ | ⟨-, rfl⟩ |
    ⟨-, rfl | rfl⟩ | ⟨hl, rfl⟩ | ⟨hl, rfl⟩ | ⟨-, rfl | rfl⟩
  · -- SOFT_RESET_WR
    obtain ⟨hst, hop⟩ : s.st = .softReset ∧ s.curOp = 1 := by simpa [seqOk, hl] using hseq
    exact ⟨by simp, fun _ => .inl ⟨hl, hst, hop, rfl⟩⟩
  · simp
  · simp
  · simp
  · simp
  · -- HS_RD
    obtain ⟨hst, -⟩ : s.st = .poll ∧ (s.curOp = 2 ∨ s.curOp = 3) := by simpa [seqOk, hl] using hseq
    exact ⟨fun _ => ⟨hl, hst⟩, by simp⟩
  · -- HS_WR
    obtain ⟨hst, -⟩ : s.st = .poll ∧ (s.curOp = 2 ∨ s.curOp = 3) := by simpa [seqOk, hl] using hseq
    exact ⟨by simp, fun _ => .inr ⟨hl, hst, rfl⟩⟩
  · simp
  · simp

end Sys2Proof.Machine
end

section
/-! Torn reads (R57, R99): what a read takes while a command runs, and how the values kept for it come about. -/

namespace Sys2Proof.Machine

variable {s t u : State}

/-! ### A read during a command -/

/-- Every draw takes one of the kept values (log 4). -/
theorem State.Valid.drawn_mem (h : s.Valid) (hb : s.busy = true) (draw : Nat) : s.drawn draw ∈ s.seen := by
  have hkept : s.regs ∈ s.seen := by simpa [hb] using h.torn
  rw [State.drawn, if_pos hb]
  obtain hlt | hge := Nat.lt_or_ge draw s.seen.length
  · rw [List.getD_eq_getElem _ _ hlt]
    exact List.getElem_mem hlt
  · rwa [List.getD_eq_default _ _ hge]

/-- Every kept value is taken by some draw (log 4). -/
theorem State.exists_drawn_eq (hb : s.busy = true) {p : Published} (hp : p ∈ s.seen) : ∃ draw, s.drawn draw = p := by
  obtain ⟨draw, hlt, rfl⟩ := List.getElem_of_mem hp
  exact ⟨draw, by rw [State.drawn, if_pos hb, List.getD_eq_getElem _ _ hlt]⟩

/-- What a host read sends, the inputs by name. -/
theorem step_hostRead_eq {index draw : Nat} {rest : List Input} (hin : s.inputs = .hostRead index draw :: rest) :
    step s = .next
      { s with
        touchIrq := false, inputs := rest
        trace := .hostValue index (s.hostValue (s.drawn draw) index) :: s.trace } := by
  rw [step_hostRead hin, State.quiet_taken hin]
  rfl

/-- Settles O5: the value sent is the drawn one's, and the map of R31 reads STATUS, RESULT and DIAG from the state. -/
theorem tornReads : Obligations.TornReads := by
  unfold Obligations.TornReads
  intro s index rest h hb _
  refine ⟨fun draw hin => ⟨s.drawn draw, h.drawn_mem hb draw, step_hostRead_eq hin⟩, fun p hp => ?_, ?_⟩
  · obtain ⟨draw, hdraw⟩ := State.exists_drawn_eq hb hp
    refine ⟨draw, (step_hostRead_eq rfl).trans ?_⟩
    rw [← hdraw]
    rfl
  · rintro (rfl | rfl | rfl) p <;> rfl

/-! ### How the kept values come about -/

/-- What happens to R99's registers and to the values kept of them, from `r` and `l` on: no write, one, or two with a
value that is `between` them; each is kept once it is written. -/
inductive SeenMove (between : Published → Prop) (r : Published) (l : List Published) :
    Published → List Published → Prop where
  | never : SeenMove between r l r l
  | once (p : Published) : SeenMove between r l p (l ++ [p])
  | twice (q p : Published) (h : between q) : SeenMove between r l p (l ++ [q, p])

section Moves

variable {between : Published → Prop} {r r' p : Published} {l l' : List Published}

theorem SeenMove.of_eq (h : r' = r ∧ l' = l) : SeenMove between r l r' l' := by
  rw [h.1, h.2]
  exact .never

/-- Every write is kept for the reads to come. -/
theorem SeenMove.kept (h : SeenMove between r l r' l') : l <+: l' ∧ (r' ≠ r → r' ∈ l'.drop l.length) := by
  cases h with
  | never => exact ⟨List.prefix_rfl, fun hne => absurd rfl hne⟩
  | once => exact ⟨List.prefix_append _ _, fun _ => by simp⟩
  | twice => exact ⟨List.prefix_append _ _, fun _ => by simp⟩

/-- Nothing is kept but what was kept before, what is written last and what is written between. -/
theorem SeenMove.of_mem (h : SeenMove between r l r' l') (hp : p ∈ l') : p ∈ l ∨ p = r' ∨ between p := by
  cases h with
  | never => exact .inl hp
  | once =>
    obtain hp | rfl : p ∈ l ∨ p = r' := by simpa using hp
    · exact .inl hp
    · exact .inr (.inl rfl)
  | twice q _ hq =>
    obtain hp | rfl | rfl : p ∈ l ∨ p = q ∨ p = r' := by simpa using hp
    · exact .inl hp
    · exact .inr (.inr hq)
    · exact .inr (.inl rfl)

end Moves

/-- What a running command publishes from `s` to `t`. -/
abbrev State.Publishes (s : State) (between : Published → Prop) (t : State) : Prop :=
  SeenMove between s.regs s.seen t.regs t.seen

variable {between : Published → Prop}

/-! ### INIT -/

theorem State.enterResetting_kept (s : State) : s.enterResetting.regs = s.regs ∧ s.enterResetting.seen = s.seen := by
  unfold State.enterResetting
  split <;> exact ⟨rfl, rfl⟩

theorem State.claimInterrupt_kept (s : State) : s.claimInterrupt.regs = s.regs ∧ s.claimInterrupt.seen = s.seen := by
  unfold State.claimInterrupt
  split
  · exact ⟨rfl, rfl⟩
  · exact s.enterResetting_kept

/-- The session reset is INIT's one write at its start (R231). -/
theorem State.initStart_publishes (s : State) : s.Publishes between s.initStart := by
  unfold State.initStart State.Publishes
  dsimp only
  split
  · exact .once Published.zero
  · obtain ⟨hregs, hseen⟩ := State.claimInterrupt_kept { s.sessionReset with st := .claim }
    rw [hregs, hseen]
    exact .once Published.zero

theorem State.initFail_publishes (s : State) : s.initFail.busy = false ∨ s.Publishes between s.initFail := by
  unfold State.initFail
  split
  · exact .inr .never
  · exact .inl rfl

theorem State.rstClaimAnswered_publishes (ok : Bool) (s : State) :
    (s.rstClaimAnswered ok).busy = false ∨ s.Publishes between (s.rstClaimAnswered ok) := by
  cases ok with
  | true => exact .inr (.of_eq (State.claimInterrupt_kept { s with rstClaimed := true }))
  | false => exact s.initFail_publishes

theorem State.intClaimAnswered_publishes (ok : Bool) (s : State) :
    (s.intClaimAnswered ok).busy = false ∨ s.Publishes between (s.intClaimAnswered ok) := by
  cases ok with
  | true => exact .inr (.of_eq (State.enterResetting_kept { s with intClaimed := true }))
  | false => exact s.initFail_publishes

/-- A bootloader poll that is not the last counts the next one in CNT (R236). -/
theorem State.bootStatusRead_publishes (ok : Bool) (s : State) : s.Publishes between (s.bootStatusRead ok) := by
  unfold State.bootStatusRead
  dsimp only
  split
  · split
    · exact .never
    · exact .once _
  · exact .never

/-! ### A poll and CLOSE -/

theorem State.handshakeRead_publishes (ok : Bool) (s : State) : s.Publishes between (s.handshakeRead ok) := by
  cases ok <;> exact .never

/-- The handshake's end writes its attempts to CNT (R203, R270). -/
theorem State.handshakeWritten_publishes (ok : Bool) (s : State) : s.Publishes between (s.handshakeWritten ok) := by
  cases ok
  · exact .never
  · exact .once _

theorem State.handshakeDelayed_publishes (s : State) : s.Publishes between s.handshakeDelayed := by
  unfold State.handshakeDelayed
  split
  · exact .once _
  · exact .never

/-- The value a GET_COORDS writes between its old registers and its last ones: the decode's (R270, R272). -/
def State.decodes (s : State) (p : Published) : Prop :=
  s.lbl = .plDec ∧ s.curOp = 3 ∧ p = decodedRegs s.params.lit s.frame s.regs

theorem State.pollDecode_publishes (hl : s.lbl = .plDec) : s.Publishes s.decodes s.pollDecode := by
  unfold State.pollDecode
  dsimp only
  split
  case isTrue hop =>
    simp only [State.Publishes, State.goto_fields, State.publish_fields, List.append_assoc]
    exact .twice _ _ ⟨hl, hop, rfl⟩
  case isFalse => exact .once _

theorem State.closeInterrupt_publishes (s : State) : s.Publishes between s.closeInterrupt := by
  unfold State.closeInterrupt
  split
  · exact .never
  · exact .once _

theorem State.closeStart_publishes (s : State) : s.Publishes between s.closeStart := by
  unfold State.closeStart
  dsimp only
  split
  · exact .never
  · exact State.closeInterrupt_publishes { s with st := .closing }

/-! ### The moves and the step -/

theorem State.zeroed_publishes (s : State) : s.Publishes between s.zeroed := by
  unfold State.zeroed
  split <;> exact .never

/-- A move of the TCB's own ends its command, or publishes what its label writes. -/
theorem State.Goes.publishes (h : s.Goes t) : t.busy = false ∨ s.Publishes s.decodes t := by
  cases h with
  | asks => exact .inr s.zeroed_publishes
  | rstClaimed _ ok => exact s.answered.rstClaimAnswered_publishes ok
  | intClaimed _ ok => exact s.answered.intClaimAnswered_publishes ok
  | tornDown | powered => exact .inl rfl
  | ended => exact .inl s.endCommand_idle
  | keyWaited | intReleased => exact .inr (.once _)
  | bootRead _ ok d => exact .inr ((s.answered.fillBlbuf d).bootStatusRead_publishes ok)
  | shakeRead _ ok d => exact .inr ((s.answered.fillHsb d).handshakeRead_publishes ok)
  | shakeWritten _ ok => exact .inr (s.answered.handshakeWritten_publishes ok)
  | shakeDelayed => exact .inr s.answered.handshakeDelayed_publishes
  | decoded hl => exact .inr (State.pollDecode_publishes hl)
  | rstReleased => exact .inr s.releaseRst.closeInterrupt_publishes
  | _ => exact .inr .never

/-- At IDLE the TCB has no move of its own (R52). -/
theorem State.Goes.eq_of_idle (h : s.Goes t) (hl : s.lbl = .idle) : t = s := by
  cases h with
  | waits => rfl
  | asks _ own => simp [labelReq, hl] at own
  | _ here => rw [hl] at here; cases here

/-- A command that starts keeps the registers' values before it, and its first writes (R99). -/
theorem State.Starts.publishes (h : s.Starts t) :
    t.busy = s.busy ∨ SeenMove between s.regs [s.regs] t.regs t.seen := by
  cases h with
  | rejects => exact .inl rfl
  | inits => exact .inr (s.latchCmd 1 0).initStart_publishes
  | polls | powers => exact .inr .never
  | closes => exact .inr (s.latchCmd 6 0).closeStart_publishes

/-- A step while BUSY = 0 leaves BUSY = 0, or starts a command. -/
theorem step_publishes_idle (hv : s.Valid) (hb : s.busy = false) (h : step s = .next t) :
    t.busy = false ∨ SeenMove between s.regs [s.regs] t.regs t.seen := by
  cases step_steps h with
  | resets => exact .inl rfl
  | configures | passes => exact .inl hb
  | starts _ command => exact command.publishes.imp_left (fun ht => ht.trans hb)
  | goes inputs own =>
    rw [own.eq_of_idle (hv.idle hb).1]
    exact .inl hb

/-- A step while BUSY = 1 leaves BUSY = 0, or publishes what the command writes. -/
theorem step_publishes_busy (hb : s.busy = true) (h : step s = .next t) :
    t.busy = false ∨ s.Publishes s.decodes t := by
  cases step_steps h with
  | resets => exact .inl rfl
  | configures | passes => exact .inr .never
  | starts idle => exact absurd (hb.symm.trans idle) nofun
  | goes inputs own => exact own.publishes

/-- Settles O6: what a start and a running command's steps publish; none is kept where `Valid.torn` says so. -/
theorem tornReadHistory : Obligations.TornReadHistory := by
  unfold Obligations.TornReadHistory
  intro s t h hstep
  have hstart (hb : s.busy = false) (ht : t.busy = true) : SeenMove s.decodes s.regs [s.regs] t.regs t.seen :=
    (step_publishes_idle h hb hstep).resolve_left (by simp [ht])
  have hrun (hb : s.busy = true) (ht : t.busy = true) : s.Publishes s.decodes t :=
    (step_publishes_busy hb hstep).resolve_left (by simp [ht])
  refine ⟨fun hb ht => ?_, fun hb ht => (hrun hb ht).kept, fun ht p hp => ?_, fun ht => ?_⟩
  · obtain ⟨l, hl⟩ := (hstart hb ht).kept.1
    simp [← hl]
  · cases hb : s.busy with
    | false =>
      obtain hp | hp := (hstart hb ht).of_mem hp
      · exact .inr (.inl (by simpa using hp))
      · exact .inr (.inr hp)
    | true =>
      obtain hp | hp := (hrun hb ht).of_mem hp
      · exact .inl hp
      · exact .inr (.inr hp)
  · simpa [ht] using (stepKeepsValid s t h hstep).torn

end Sys2Proof.Machine
end

section
/-! Decoding and encoding (R110 to R114, R118, R120, R126, R127): what each decoder accepts, said once for each, and
from it that encoding and decoding undo one another. -/

namespace Sys2Proof

open Machine

variable {l : Literals} {inPoll : Bool} {w h : Nat} {payload : List Byte} {i : Instr}

/-! ### Decoding an encoding -/

/-- The six command words; GET_COORDS alone has an argument (R112, R113). -/
theorem decodeCmd16_packCmd (arg : BitVec 4) :
    decodeCmd16 (packCmd 0 1) = .ok .init ∧ decodeCmd16 (packCmd 0 2) = .ok .readData ∧
      decodeCmd16 (packCmd arg 3) = .ok (.getCoords arg.toNat) ∧ decodeCmd16 (packCmd 0 4) = .ok .enterSleep ∧
      decodeCmd16 (packCmd 0 5) = .ok .exitSleep ∧ decodeCmd16 (packCmd 0 6) = .ok .close := by
  simp [decodeCmd16]

/-- Settles O13: a command by its fields; a transaction's encoding is its request's header and payload, which decode by
`memRead_decodes` and `memWrite_decodes`. -/
theorem decodeEncode : Obligations.DecodeEncode := by
  unfold Obligations.DecodeEncode
  intro i hwf
  obtain ⟨hinit, hread, -, hsleep, hwake, hclose⟩ := decodeCmd16_packCmd 0
  obtain ⟨⟨-, hhs, -⟩, ⟨-, hbl, -⟩, hframe⟩ := memRead_decodes i.inPoll
  obtain ⟨-, ⟨-, hsoft, -⟩, ⟨-, hkey, -⟩, ⟨-, hslept, -⟩, ⟨-, hwoken, -⟩⟩ := memWrite_decodes 0
  cases i with
  | init => exact hinit
  | readData => exact hread
  | getCoords n =>
    have hn : (BitVec.ofNat 4 n).toNat = n := Nat.mod_eq_of_lt (by simpa [Instr.wf, Nat.lt_succ_iff] using hwf)
    obtain ⟨-, -, hcoords, -⟩ := decodeCmd16_packCmd (BitVec.ofNat 4 n)
    rwa [hn] at hcoords
  | enterSleep => exact hsleep
  | exitSleep => exact hwake
  | close => exact hclose
  | softResetWr => exact hsoft
  | keyUnlockWr => exact hkey
  | blStatusRd => exact hbl
  | frameRd len =>
    obtain rfl | rfl : len = 14 ∨ len = 13 := by simpa [Instr.wf] using hwf
    · obtain ⟨-, hdecode, -⟩ := hframe .fourteen
      exact hdecode
    · obtain ⟨-, hdecode, -⟩ := hframe .thirteen
      exact hdecode
  | hsRd => exact hhs
  | hsWr value =>
    obtain ⟨⟨-, hshake, -⟩, -⟩ := memWrite_decodes value
    exact hshake
  | sleepWr => exact hslept
  | wakeWr => exact hwoken

/-- Settles O16: the words are the encodings' own. -/
theorem specWordsDecode : Obligations.SpecWordsDecode := by
  unfold Obligations.SpecWordsDecode
  obtain ⟨hinit, hread, hcoords, hsleep, hwake, hclose⟩ := decodeCmd16_packCmd 2
  obtain ⟨⟨-, hhs, -⟩, -, hframe⟩ := memRead_decodes true
  obtain ⟨-, ⟨-, hbl, -⟩, -⟩ := memRead_decodes false
  obtain ⟨-, h14, -⟩ := hframe .fourteen
  obtain ⟨-, h13, -⟩ := hframe .thirteen
  obtain ⟨⟨-, hshake, -⟩, ⟨-, hsoft, -⟩, ⟨-, hkey, -⟩, ⟨-, hslept, -⟩, ⟨-, hwoken, -⟩⟩ := memWrite_decodes 0xDA
  exact ⟨hinit, hread, hcoords, hsleep, hwake, hclose, hsoft, hkey, hbl, h14, h13, hhs, hshake, hslept, hwoken⟩

/-! ### What the command decoder accepts -/

/-- What passes a check that rejects. -/
theorem ok_of_guard {c : Prop} [Decidable c] {e : DecodeError} {x : Except DecodeError Instr}
    (hd : (if c then .error e else x) = .ok i) : ¬ c ∧ x = .ok i := by
  split at hd
  · cases hd
  · exact ⟨‹_›, hd⟩

/-- What passes a check that accepts is what it accepts, or goes on. -/
theorem ok_of_choice {c : Prop} [Decidable c] {j : Instr} {x : Except DecodeError Instr}
    (hd : (if c then .ok j else x) = .ok i) : c ∧ i = j ∨ ¬ c ∧ x = .ok i := by
  split at hd
  · cases hd
    exact .inl ⟨‹_›, rfl⟩
  · exact .inr ⟨‹_›, hd⟩

/-- The fields of a word the command decoder accepts, by instruction (R111 to R114). -/
theorem decodeCmd16_fields (hd : decodeCmd16 w = .ok i) :
    cmdRsv w = 0 ∧
      (cmdOp w = 3 ∧ i = .getCoords (cmdArg w).toNat ∨
        cmdArg w = 0 ∧
          (cmdOp w = 1 ∧ i = .init ∨ cmdOp w = 2 ∧ i = .readData ∨ cmdOp w = 4 ∧ i = .enterSleep ∨
            cmdOp w = 5 ∧ i = .exitSleep ∨ cmdOp w = 6 ∧ i = .close)) := by
  unfold decodeCmd16 at hd
  obtain ⟨hrsv, hd⟩ := ok_of_guard hd
  refine ⟨not_not.mp hrsv, ?_⟩
  obtain hcoords | ⟨h3, hd⟩ := ok_of_choice hd
  · exact .inl hcoords
  obtain ⟨hop, hd⟩ := ok_of_guard hd
  obtain ⟨harg, hd⟩ := ok_of_guard hd
  refine .inr ⟨not_not.mp harg, ?_⟩
  have hsix : cmdOp w = 1 ∨ cmdOp w = 2 ∨ cmdOp w = 4 ∨ cmdOp w = 5 ∨ cmdOp w = 6 := by bv_omega
  obtain h1 | h2 | h4 | h5 | h6 := hsix <;> simp_all

/-- What the command decoder accepts is well formed and encodes to its word (R111, R112). -/
theorem encode_of_decodeCmd16 (hd : decodeCmd16 w = .ok i) : i.wf = true ∧ encode l i = .cmd16 w := by
  obtain ⟨hrsv, hfields⟩ := decodeCmd16_fields hd
  rw [← packCmd_fields hrsv]
  obtain ⟨hop, rfl⟩ | ⟨harg, ⟨hop, rfl⟩ | ⟨hop, rfl⟩ | ⟨hop, rfl⟩ | ⟨hop, rfl⟩ | ⟨hop, rfl⟩⟩ := hfields
  · have harg := (cmdArg w).isLt
    exact ⟨by simpa [Instr.wf] using Nat.le_of_lt_succ harg, by simp [encode, hop]⟩
  all_goals exact ⟨rfl, by rw [hop, harg]; rfl⟩

/-! ### What the bus decoder accepts -/

/-- What the bus decoder accepts: a header of its width with the device and the register that the TCB sends, on a read
without payload or on a write of LEN bytes, and the instruction encodes to that read or that write (R118, R120). -/
theorem decodeBusReq_cases (hd : decodeBusReq l inPoll h payload = .ok i) :
    h < 2 ^ l.headerW ∧ headerDev l h = l.devAddr ∧ headerReg l h = l.busReg ∧ i.wf = true ∧
      ((headerDir l h = true ∧ payload = [] ∧ ∃ n, headerLen h = BitVec.ofNat 8 n ∧ encode l i = encodeRead l n) ∨
        (headerDir l h = false ∧ payload.length = (headerLen h).toNat ∧ encode l i = encodeWrite l payload)) := by
  unfold decodeBusReq at hd
  obtain ⟨hw, hd⟩ := ok_of_guard hd
  obtain ⟨hdev, hd⟩ := ok_of_guard hd
  obtain ⟨hreg, hd⟩ := ok_of_guard hd
  refine ⟨Nat.not_le.mp hw, not_not.mp hdev, not_not.mp hreg, ?_⟩
  cases hr : headerDir l h with
  | true =>
    obtain ⟨hp, hd⟩ := ok_of_guard (by simpa only [hr, if_true] using hd)
    iterate 4
      obtain ⟨hn, rfl⟩ | ⟨-, hd⟩ := ok_of_choice hd
      · exact ⟨rfl, .inl ⟨rfl, not_not.mp hp, _, hn, rfl⟩⟩
    cases hd
  | false =>
    obtain ⟨hlen, hd⟩ := ok_of_guard (by simpa only [hr, Bool.false_eq_true, if_false] using hd)
    suffices hi : i.wf = true ∧ encode l i = encodeWrite l payload from ⟨hi.1, .inr ⟨rfl, not_not.mp hlen, hi.2⟩⟩
    obtain ⟨hone, rfl⟩ | ⟨-, hd⟩ := ok_of_choice hd
    · obtain ⟨x, rfl⟩ := List.length_eq_one_iff.mp hone.2
      exact ⟨rfl, rfl⟩
    iterate 4
      obtain ⟨rfl, rfl⟩ | ⟨-, hd⟩ := ok_of_choice hd
      · exact ⟨rfl, rfl⟩
    obtain ⟨-, hd⟩ := ok_of_guard hd
    cases hd

/-- The header's fields, with REG_BASE for the BREG_W bits of it that REG carries, make the header (R118). -/
theorem packHeader_busReg (hw : h < 2 ^ l.headerW) (hdev : headerDev l h = l.devAddr)
    (hreg : headerReg l h = l.busReg) : packHeader l (headerDir l h) l.devAddr l.regBase (headerLen h) = h := by
  have hfield : field l.busReg 0 l.bregW = field l.regBase 0 l.bregW := field_of_lt (field_lt _ _ _)
  calc packHeader l (headerDir l h) l.devAddr l.regBase (headerLen h)
      = packHeader l (headerDir l h) (headerDev l h) (headerReg l h) (headerLen h) := by
        rw [packHeader, packHeader, hdev, hreg, hfield]
    _ = h := packHeader_fields l hw

/-- What the bus decoder accepts is well formed and encodes to its header and payload (R118, R120). -/
theorem encode_of_decodeBusReq (hd : decodeBusReq l inPoll h payload = .ok i) :
    i.wf = true ∧ encode l i = .busreq h payload := by
  obtain ⟨hw, hdev, hreg, hwf, ⟨hr, rfl, n, hn, hi⟩ | ⟨hr, hlen, hi⟩⟩ := decodeBusReq_cases hd
  · have hpack := packHeader_busReg hw hdev hreg
    rw [hr, hn] at hpack
    exact ⟨hwf, by rw [hi, encodeRead, hpack]⟩
  · have hpack := packHeader_busReg hw hdev hreg
    have hn : headerLen h = BitVec.ofNat 8 payload.length := by simp [hlen]
    rw [hr, hn] at hpack
    exact ⟨hwf, by rw [hi, encodeWrite, hpack]⟩

/-- Settles O14: format by format. -/
theorem encodeDecode : Obligations.EncodeDecode := by
  unfold Obligations.EncodeDecode
  intro inPoll e i hd
  cases e with
  | cmd16 w => exact encode_of_decodeCmd16 hd
  | busreq h payload => exact encode_of_decodeBusReq hd

/-! ### Bytes -/

/-- A header fits its whole bytes (R126). -/
theorem Literals.headerW_le_headerBytes (l : Literals) : l.headerW ≤ 8 * l.headerBytes := by
  unfold Literals.headerBytes
  omega

/-- The byte decoder takes a request's own bytes and leaves the rest: the header says how many they are (R126). -/
theorem decodeBusBytes_of_decodeBusReq (hd : decodeBusReq l inPoll h payload = .ok i) (rest : List Byte) :
    decodeBusBytes l inPoll (toBytes l.headerBytes h ++ payload ++ rest) = .ok (i, rest) := by
  obtain ⟨hw, -, -, -, hdir⟩ := decodeBusReq_cases hd
  have hlen : payload.length = payloadLength l h := by
    obtain ⟨hr, rfl, -⟩ | ⟨hr, hlen, -⟩ := hdir
    · simp [payloadLength, hr]
    · simp [payloadLength, hr, hlen]
  have hfit : h < 2 ^ (8 * l.headerBytes) := hw.trans_le (Nat.pow_le_pow_right (by decide) l.headerW_le_headerBytes)
  have hh : ofBytes (toBytes l.headerBytes h) = h := by rw [ofBytes_toBytes, Nat.mod_eq_of_lt hfit]
  unfold decodeBusBytes
  simp [List.append_assoc, List.take_left', List.drop_left', hh, ← hlen, hd, Except.map]

/-- Settles O15: an encoding decodes (`decodeEncode`), so its bytes do. -/
theorem busBytesRoundTrip : Obligations.BusBytesRoundTrip := by
  unfold Obligations.BusBytesRoundTrip
  intro i bytes rest hwf hbytes
  have hd := decodeEncode i hwf
  cases he : encode .shown i with
  | cmd16 w => simp [he, Encoded.busBytes] at hbytes
  | busreq h payload =>
    rw [he] at hd hbytes
    cases hbytes
    exact decodeBusBytes_of_decodeBusReq hd rest

end Sys2Proof
end

section
/-! The host's command words (R110 to R116, R125, R321): which are legal, and what a write of one to CMD does. -/

namespace Sys2Proof.Machine

variable {s : State} {w : Nat} {i : Instr} {rest : List Input}

/-! ### Legal words -/

/-- R114's arithmetic by the word's fields. -/
theorem illegalWord_iff (w : Nat) :
    illegalWord w = true ↔
      cmdRsv w ≠ 0 ∨ (cmdOp w = 0 ∨ 6 < (cmdOp w).toNat) ∨ (cmdOp w ≠ 3 ∧ cmdArg w ≠ 0) := by
  have hop (k : BitVec 4) : cmdOp w = k ↔ w % 16 = k.toNat := by
    rw [← BitVec.toNat_inj, cmdOp, BitVec.toNat_ofNat]
  have harg (k : BitVec 4) : cmdArg w = k ↔ w / 16 % 16 = k.toNat := by
    rw [← BitVec.toNat_inj, cmdArg, BitVec.toNat_ofNat]
    exact Iff.rfl
  have hnum : (cmdOp w).toNat = w % 16 := BitVec.toNat_ofNat ..
  simp [illegalWord, cmdRsv, hop, harg, hnum, or_assoc]

/-- Every other word is an instruction (R112). -/
theorem exists_decodeCmd16 (hlegal : illegalWord w = false) : ∃ i, decodeCmd16 w = .ok i := by
  have hfields := (illegalWord_iff w).not.mp (by simp [hlegal])
  simp only [not_or, not_and, not_not] at hfields
  obtain ⟨hrsv, ⟨h0, h6⟩, harg⟩ := hfields
  have hop : cmdOp w = 3 ∨ cmdOp w = 1 ∨ cmdOp w = 2 ∨ cmdOp w = 4 ∨ cmdOp w = 5 ∨ cmdOp w = 6 := by bv_omega
  obtain hop | hop | hop | hop | hop | hop := hop <;> simp [decodeCmd16, hrsv, hop] at harg ⊢ <;> simp [harg]

/-- A word the decoder accepts is legal (R114). -/
theorem illegalWord_of_ok (hd : decodeCmd16 w = .ok i) : illegalWord w = false := by
  rw [← Bool.not_eq_true, illegalWord_iff]
  obtain ⟨hrsv, ⟨hop, -⟩ | ⟨harg, ⟨hop, -⟩ | ⟨hop, -⟩ | ⟨hop, -⟩ | ⟨hop, -⟩ | ⟨hop, -⟩⟩⟩ := decodeCmd16_fields hd <;>
    simp [*]

/-- The words the decoder rejects are R114's. -/
theorem decodeCmd16_error_iff (w : Nat) : (∃ e, decodeCmd16 w = .error e) ↔ illegalWord w = true := by
  constructor
  · rintro ⟨e, he⟩
    by_contra hlegal
    obtain ⟨i, hi⟩ := exists_decodeCmd16 (by simpa using hlegal)
    cases he.symm.trans hi
  · intro hillegal
    cases hd : decodeCmd16 w with
    | error e => exact ⟨e, rfl⟩
    | ok i => exact absurd (hillegal.symm.trans (illegalWord_of_ok hd)) nofun

/-- INIT alone is the word 0x0001 (R112). -/
theorem decodeCmd16_init_iff (w : Nat) : decodeCmd16 w = .ok .init ↔ w = 0x0001 := by
  refine ⟨fun hd => ?_, fun hw => hw ▸ rfl⟩
  obtain ⟨-, he⟩ := encode_of_decodeCmd16 (l := .shown) hd
  exact (Encoded.cmd16.inj he).symm

/-! ### A word written to CMD -/

/-- BUSY is 0 in these three states (R38). -/
theorem State.busy_eq_false_iff (s : State) :
    s.busy = false ↔ s.st = .uninit ∨ s.st = .operational ∨ s.st = .failed := by
  rw [← Bool.not_eq_true, (modeAndBusy s).1, not_not]

/-- Settles O9: `step_dropped`. -/
theorem busyCommandDropped : Obligations.BusyCommandDropped := by
  unfold Obligations.BusyCommandDropped
  intro s w rest hin hst
  rw [step_dropped hin ((modeAndBusy s).1.mpr hst), State.quiet_taken hin]

/-- Settles O10: `decodeCmd16_error_iff`, and `step_illegal` for such a word. -/
theorem illegalWordRejected : Obligations.IllegalWordRejected := by
  unfold Obligations.IllegalWordRejected
  refine ⟨decodeCmd16_error_iff, fun s w rest hw hlt hin hillegal hst => ?_⟩
  obtain ⟨e, he⟩ := (decodeCmd16_error_iff w).mpr hillegal
  rw [step_illegal hin (s.busy_eq_false_iff.mpr hst) (by rwa [hw, field_of_lt hlt]), State.quiet_taken hin]
  rfl

/-- A legal word is run as it stands: the 16 bits of CMD take all of it (R111). -/
theorem step_decoded (hw : s.params.lit.hregW = 16) (hin : s.inputs = .hostWrite 0x00 w :: rest) (hb : s.busy = false)
    (hd : decodeCmd16 w = .ok i) : step s = exec i { s with touchIrq := false, inputs := rest } := by
  have hlt : w < 2 ^ 16 := (decodeCmd16_ok_lt hd).trans (by decide)
  rw [step_command hin hb (by rwa [hw, field_of_lt hlt]), State.quiet_taken hin]

/-- Settles O18: `step_decoded`. -/
theorem stepRunsHostCommand : Obligations.StepRunsHostCommand := by
  unfold Obligations.StepRunsHostCommand
  intro s w rest i hw hin hb hd _
  exact step_decoded hw hin hb hd

/-- In a session INIT is rejected (R115). -/
theorem execInit_session (h : s.st = .operational) : exec .init s = .next (s.reject .errSessionActive) := by
  simp [exec, execInit, State.busy, h, St.busy]

theorem runSession_noSession {op arg : BitVec 4} {start : State → State} (h : s.st = .uninit ∨ s.st = .failed) :
    runSession op arg start s = .next (s.reject .errNoSession) := by
  obtain h | h := h <;> simp [runSession, State.busy, h, St.busy]

/-- Outside a session every command but INIT is rejected (R115). -/
theorem exec_noSession (hd : decodeCmd16 w = .ok i) (hi : i ≠ .init) (h : s.st = .uninit ∨ s.st = .failed) :
    exec i s = .next (s.reject .errNoSession) := by
  obtain rfl | rfl | ⟨n, rfl⟩ | rfl | rfl | rfl := decodeCmd16_command hd
  · exact absurd rfl hi
  all_goals exact runSession_noSession h

/-- Settles O11: the word decodes, to INIT only if it is 0x0001, and its meaning rejects it. -/
theorem sessionChecks : Obligations.SessionChecks := by
  unfold Obligations.SessionChecks
  intro s w rest hw hin hlegal
  obtain ⟨i, hd⟩ := exists_decodeCmd16 hlegal
  refine ⟨fun h1 hst => ?_, fun h1 hst => ?_⟩
  · rw [step_decoded hw hin (by simp [State.busy, hst, St.busy]) ((decodeCmd16_init_iff w).mpr h1)]
    exact execInit_session hst
  · have hi : i ≠ .init := fun hi => h1 ((decodeCmd16_init_iff w).mp (hi ▸ hd))
    rw [step_decoded hw hin (by obtain hst | hst := hst <;> simp [State.busy, hst, St.busy]) hd]
    exact exec_noSession hd hi hst

/-! ### INIT starts -/

/-- INIT outside a session (R231, R240). -/
theorem execInit_idle (h : s.st = .uninit ∨ s.st = .failed) :
    exec .init s =
      if s.params.explicitBlExit then .refused .explicitBlExitUnmodelled else .next (s.latchCmd 1 0).initStart := by
  obtain h | h := h <;> simp [exec, execInit, State.busy, h, St.busy]

/-- Where INIT starts: at the first claim CFG asks for, else, with nothing to claim or to reset, at the soft reset
(R231, R233). -/
theorem State.initStart_eq (s : State) :
    s.initStart =
      if s.rstEn then s.sessionReset.enter .claim .clRst
      else if s.intEn then s.sessionReset.enter .claim .clInt
      else s.sessionReset.enter .softReset .srWr := by
  have hrst : State.rstEn { s.sessionReset with st := .claim } = s.rstEn := rfl
  have hint : State.intEn { s.sessionReset with st := .claim } = s.intEn := rfl
  unfold State.initStart State.claimInterrupt State.enterResetting
  dsimp only
  rw [hrst, hint]
  cases s.rstEn <;> rfl

/-- Settles O21: the lines CFG enables choose the first label. -/
theorem initStarts : Obligations.InitStarts := by
  unfold Obligations.InitStarts
  intro s hst hx
  rw [execInit_idle hst, hx, if_neg Bool.false_ne_true, State.initStart_eq]
  change Host.Outcome.next (if s.cfg.testBit 0 then _ else if s.cfg.testBit 2 then _ else _) = _
  cases s.cfg.testBit 0 <;> cases s.cfg.testBit 2 <;> rfl

end Sys2Proof.Machine
end

section
/-! The written form of host programs (R125, R128): the words the pseudo-operations write, field by field. -/

namespace Sys2Proof.Machine

variable {s : State} {l : Literals}

/-- A command's pseudo-operation writes its fields packed (R111, R125). -/
theorem PseudoCmd.word_getCoords (n : BitVec 4) : (PseudoCmd.getCoords n).word = packCmd n 3 := by
  have hor : 0x0003 ||| n.toNat <<< 4 = n.toNat <<< 4 + 3 := by
    rw [Nat.or_comm, ← Nat.shiftLeft_add_eq_or_of_lt (by decide)]
  rw [PseudoCmd.word, hor, Nat.shiftLeft_eq]
  rfl

theorem lineBits_lt (line : Option (Nat × Bool)) : lineBits line < 4 := by
  rcases line with _ | ⟨p, _ | _⟩ <;> simp [lineBits]

theorem linePin_lt (line : Option (Nat × Bool)) : linePin l line < 2 ^ l.pinW := by
  rcases line with _ | ⟨p, b⟩
  · exact Nat.two_pow_pos _
  · exact field_lt _ _ _

/-- The fields of CFG's word read back, those of PIN_W bits and each line's two bits (R34, R125). -/
theorem cfgWord_fields (hp : l.pinW = 6) (rst int : Option (Nat × Bool)) :
    cfgWord l rst int < 2 ^ 16 ∧ field (cfgWord l rst int) 4 6 = linePin l rst ∧
      field (cfgWord l rst int) 10 6 = linePin l int ∧ cfgWord l rst int % 4 = lineBits rst ∧
      cfgWord l rst int / 4 % 4 = lineBits int := by
  have hrp := linePin_lt (l := l) rst
  have hip := linePin_lt (l := l) int
  have hrb := lineBits_lt rst
  have hib := lineBits_lt int
  rw [hp] at hrp hip
  simp only [field, cfgWord, hp]
  omega

/-- The bits of a line: enabled if it is given, and its level (R125). -/
theorem lineBits_testBit (line : Option (Nat × Bool)) :
    (lineBits line).testBit 0 = line.isSome ∧ (lineBits line).testBit 1 = (line.map Prod.snd).getD false := by
  rcases line with _ | ⟨p, _ | _⟩ <;> simp [lineBits, Nat.testBit_eq_decide_div_mod_eq]

/-- So CFG's fields are those of the lines it was written from (R34, R125). -/
theorem State.cfg_of_cfgWord {rst int : Option (Nat × Bool)} (hp : s.params.lit.pinW = 6)
    (hcfg : s.cfg = cfgWord s.params.lit rst int) :
    s.rstEn = rst.isSome ∧ s.rstLvl = (rst.map Prod.snd).getD false ∧ s.intEn = int.isSome ∧
      s.intLvl = (int.map Prod.snd).getD false ∧ s.rstPin = linePin s.params.lit rst ∧
      s.intPin = linePin s.params.lit int := by
  obtain ⟨-, hrp, hip, hrb, hib⟩ := cfgWord_fields hp rst int
  obtain ⟨hren, hrlvl⟩ := lineBits_testBit rst
  obtain ⟨hien, hilvl⟩ := lineBits_testBit int
  rw [← hcfg] at hrp hip hrb hib
  have hr (k : Nat) (hk : k < 2) : s.cfg.testBit k = (lineBits rst).testBit k := by
    rw [← hrb, show 4 = 2 ^ 2 from rfl, Nat.testBit_mod_two_pow, decide_eq_true hk, Bool.true_and]
  have hi (k : Nat) (hk : k < 2) : s.cfg.testBit (k + 2) = (lineBits int).testBit k := by
    rw [← hib, show 4 = 2 ^ 2 from rfl, Nat.testBit_mod_two_pow, decide_eq_true hk, Bool.true_and,
      Nat.testBit_div_two_pow]
  unfold State.rstPin State.intPin
  rw [hp]
  exact ⟨(hr 0 (by decide)).trans hren, (hr 1 (by decide)).trans hrlvl, (hi 0 (by decide)).trans hien,
    (hi 1 (by decide)).trans hilvl, hrp, hip⟩

/-- BUSY is bit 7 of STATUS (R36). -/
theorem State.waitAgain_statusWord (s : State) : waitAgain s.statusWord.toNat = s.busy := by
  have hst := s.st.code.isLt
  have hmode := s.mode.code.isLt
  rw [waitAgain, s.statusWord_toNat, Nat.testBit_eq_decide_div_mod_eq]
  cases s.busy <;> simp only [Bool.toNat_true, Bool.toNat_false, decide_eq_true_eq, decide_eq_false_iff_not] <;> omega

/-- Settles O17: the commands' words by their fields, CFG's by `cfg_of_cfgWord`, STATUS by `waitAgain_statusWord`. -/
theorem hostProgramWords : Obligations.HostProgramWords := by
  unfold Obligations.HostProgramWords
  obtain ⟨hinit, hread, -, hsleep, hwake, hclose⟩ := decodeCmd16_packCmd 0
  refine ⟨⟨hinit, hread, fun n => ?_, hsleep, hwake, hclose⟩, fun s rst int hp hcfg => ?_, rfl,
    State.waitAgain_statusWord⟩
  · obtain ⟨-, -, hcoords, -⟩ := decodeCmd16_packCmd n
    rw [PseudoCmd.word_getCoords, hcoords]
  · obtain ⟨hren, hrlvl, hien, hilvl, hrpin, hipin⟩ := State.cfg_of_cfgWord hp hcfg
    rw [hren, hrlvl, hien, hilvl, hrpin, hipin, hcfg]
    refine ⟨(cfgWord_fields hp rst int).1, rfl, rfl, ?_, ?_, ?_, ?_⟩
    · rintro p l rfl
      exact ⟨rfl, fun hlt => by rw [linePin, hp, field_of_lt hlt]⟩
    · rintro q m rfl
      exact ⟨rfl, fun hlt => by rw [linePin, hp, field_of_lt hlt]⟩
    · rintro rfl
      exact ⟨rfl, rfl⟩
    · rintro rfl
      exact ⟨rfl, rfl⟩

end Sys2Proof.Machine
end

section
/-! The bus transactions at and away from their places (R120, R127, R160; log 12), and the frame bytes the decode does
not read (R122). -/

namespace Sys2Proof.Machine

variable {s : State}

/-! ### Frames -/

/-- The validated count reads touch_status[3:0] only (R122, R172). -/
theorem validCount_congr {a b : Byte} (h : a.extractLsb' 0 4 = b.extractLsb' 0 4) :
    validCount .shown a = validCount .shown b := by
  have hlow : a.toNat % 16 = b.toNat % 16 := by
    have hn := congrArg BitVec.toNat h
    rwa [BitVec.extractLsb'_toNat, BitVec.extractLsb'_toNat, Nat.shiftRight_zero, Nat.shiftRight_zero] at hn
  rw [← BitVec.toNat_inj, validCount_toNat, validCount_toNat, hlow]

/-- A point reads its own five bytes only (R171). -/
theorem decodePoint_congr {f g : List Byte} {o : Nat} (h : ∀ k < 5, f.getD (o + k) 0 = g.getD (o + k) 0) :
    decodePoint f o = decodePoint g o := by
  have h0 : f.getD o 0 = g.getD o 0 := h 0 (by decide)
  rw [decodePoint, decodePoint, h0, h 1 (by decide), h 2 (by decide), h 3 (by decide), h 4 (by decide)]

/-- Settles O45: the count and the two points read touch_status[3:0], bytes 3 to 7 and bytes 9 to 13. -/
theorem unusedFrameBytes : Obligations.UnusedFrameBytes := by
  unfold Obligations.UnusedFrameBytes
  intro f g r hcount hpoints
  have hn : frameCount .shown f = frameCount .shown g := validCount_congr hcount
  have h0 : framePoint0 f = framePoint0 g :=
    decodePoint_congr fun k hk => hpoints (3 + k) (by omega) (by omega) (by omega)
  have h1 : framePoint1 f = framePoint1 g :=
    decodePoint_congr fun k hk => hpoints (9 + k) (by omega) (by omega) (by omega)
  rw [decodedRegs, decodedRegs, hn, h0, h1]

/-! ### Transactions away from their places -/

theorem busWrite_away {here : Bool} {d : List Byte} {k : Bool → State → State} (h : here ≠ true) :
    busWrite here d k s = .refused .offSequence :=
  if_neg h

theorem busRead_away {here : Bool} {n : Nat} {clear : State → State} {fill : List Byte → State → State}
    {k : Bool → State → State} (h : here ≠ true) : busRead here n clear fill k s = .refused .offSequence :=
  if_neg h

/-- Settles O34: transaction by transaction, to be at its place is to be what the sequencer fetches. -/
theorem offSequenceRefused : Obligations.OffSequenceRefused := by
  unfold Obligations.OffSequenceRefused
  rintro s i ⟨h, payload, he⟩ haway
  cases i with
  | init | readData | getCoords | enterSleep | exitSleep | close => cases he
  | softResetWr => exact busWrite_away fun hh => haway (by simp_all [fetchBus])
  | keyUnlockWr => exact busWrite_away fun hh => haway (by simp_all [fetchBus])
  | blStatusRd => exact busRead_away fun hh => haway (by simp_all [fetchBus])
  | frameRd len =>
    refine busRead_away fun hh => haway ?_
    obtain ⟨hl | hl, rfl⟩ : (s.lbl = .eoRd ∨ s.lbl = .plRd) ∧ len = s.params.frameReadLen.toNat := by simpa using hh
    · simp [fetchBus, hl]
    · simp [fetchBus, hl]
  | hsRd => exact busRead_away fun hh => haway (by simp_all [fetchBus])
  | hsWr value => exact busWrite_away fun hh => haway (by simp_all [fetchBus])
  | sleepWr => exact busWrite_away fun hh => haway (by simp_all [fetchBus])
  | wakeWr => exact busWrite_away fun hh => haway (by simp_all [fetchBus])

/-! ### Transactions issued -/

/-- A write with R10's parameters, at its place with no request outstanding, is issued. -/
theorem busWrite_issue_shown {here : Bool} {d : List Byte} {k : Bool → State → State} (hh : here = true)
    (hlit : s.params.lit = .shown) (hr : s.req = none) :
    busWrite here d k s = .next (s.issue (.bus (memWrite .shown d))) := by
  rw [hh, busWrite_issue hr, hlit]

theorem busRead_issue_shown {here : Bool} {n : Nat} {clear : State → State} {fill : List Byte → State → State}
    {k : Bool → State → State} (hh : here = true) (hlit : s.params.lit = .shown) (hr : s.req = none) :
    busRead here n clear fill k s = .next ((clear s).issue (.bus (memRead .shown n))) := by
  rw [hh, busRead_issue hr, hlit]

/-- Settles O25: each at its label, by `busWrite_issue_shown` and `busRead_issue_shown`. -/
theorem transactionsIssued : Obligations.TransactionsIssued := by
  unfold Obligations.TransactionsIssued
  intro s hlit hr send write read
  have hwrite (d : List Byte) : (write d).header .shown = 0x240000 + d.length % 256 := memWrite_header d
  have hread (n : Nat) : (read (BitVec.ofNat 8 n)).header .shown = 0xA40000 + n % 256 := memRead_header n
  have hframe (n : Nat) (hl : s.lbl = .eoRd ∨ s.lbl = .plRd) (hn : n = s.params.frameReadLen.toNat) :
      exec (.frameRd n) s = .next (send (read (BitVec.ofNat 8 n)) { s with frame := List.replicate 14 0 }) := by
    have hclear : s.clearFrame = { s with frame := List.replicate 14 0 } := by simp [State.clearFrame, hlit]
    rw [← hclear]
    exact busRead_issue_shown (by simp [hl, hn]) hlit hr
  refine ⟨fun hl => ⟨?_, hwrite _⟩, fun hl => ⟨?_, hwrite _⟩, fun hl => ⟨?_, hread 16⟩,
    fun hl hn => ⟨?_, hread 14⟩, fun hl hn => ⟨?_, hread 13⟩, fun hl => ⟨?_, hread 1⟩, fun hl => ⟨?_, hwrite _⟩,
    fun hl hop => ⟨?_, hwrite _⟩, fun hl hop => ⟨?_, hwrite _⟩⟩
  · exact (busWrite_issue_shown (by simp [hl]) hlit hr).trans (by rw [hlit]; rfl)
  · exact (busWrite_issue_shown (by simp [hl]) hlit hr).trans (by rw [hlit]; rfl)
  · have hclear : s.clearBlbuf = { s with blbuf := List.replicate 16 0 } := by simp [State.clearBlbuf, hlit]
    rw [← hclear]
    exact (busRead_issue_shown (by simp [hl]) hlit hr).trans (by rw [hlit]; rfl)
  · exact hframe 14 hl (by rw [hn]; rfl)
  · exact hframe 13 hl (by rw [hn]; rfl)
  · exact busRead_issue_shown (by simp [hl]) hlit hr
  · exact busWrite_issue_shown (by simp [hl, hlit, flipHsBit_shown]) hlit hr
  · exact (busWrite_issue_shown (by simp [hl, hop]) hlit hr).trans (by rw [hlit]; rfl)
  · exact (busWrite_issue_shown (by simp [hl, hop]) hlit hr).trans (by rw [hlit]; rfl)

end Sys2Proof.Machine
end

section
/-! Refusals (R119, R240, R324, I6): what the TCB's own move is at each label, and from it where a step is refused. -/

namespace Sys2Proof.Machine

variable {s : State} {r : Refusal}

/-! ### The TCB's own move -/

/-- The TCB's own move by its label's request: that request's operation, at its place, or a next state if the label has
none (R52, R55). -/
inductive State.OwnMove (s : State) : Result → Prop where
  | writes {here : Bool} {d : List Byte} {k : Bool → State → State} (place : here = true)
    (own : labelReq s = some (.bus (memWrite s.params.lit d))) : s.OwnMove (busWrite here d k s)
  | reads {here : Bool} {n : Nat} {clear : State → State} {fill : List Byte → State → State}
    {k : Bool → State → State} (place : here = true) (fits : n < 256)
    (own : labelReq s = some (.bus (memRead s.params.lit n))) : s.OwnMove (busRead here n clear fill k s)
  | asks {q : Req} {take : Input → Option (State → State)} (own : labelReq s = some q) (port : ∀ b, q ≠ .bus b) :
    s.OwnMove (awaitPort q take s)
  | goes {t : State} (own : labelReq s = none) : s.OwnMove (.next t)

theorem frameReadLen_lt (n : FrameReadLen) : n.toNat < 256 := by
  cases n <;> decide

/-- Label by label; that PW_WR stands in an ENTER_SLEEP or an EXIT_SLEEP is `Valid.position`. -/
theorem State.Valid.proceed_ownMove (h : s.Valid) : s.OwnMove s.proceed.run := by
  have hseq := h.position
  have hbl : s.params.lit.blFrameLen < 256 := by simp [h.literals]
  cases hl : s.lbl <;> simp only [State.proceed, fetchBus, portStep, hl, Action.run_ends, Action.run_runs]
  case clRst | clInt | rsHold1 | rsHold2 | srWait | kyWait | blDly | eoDly | hsDly =>
    exact .asks (by simp [labelReq, hl]) nofun
  case srWr | kyWr | hsWr => exact .writes (by simp [hl]) (by simp [labelReq, hl])
  case blRd => exact .reads (by simp [hl]) hbl (by simp [labelReq, hl])
  case eoRd | plRd => exact .reads (by simp [hl]) (frameReadLen_lt _) (by simp [labelReq, hl])
  case hsRd => exact .reads (by simp [hl]) (by decide) (by simp [labelReq, hl])
  case pwWr =>
    have hop : s.curOp = 4 ∨ s.curOp = 5 := by simp_all [seqOk]
    obtain h4 | h5 := hop
    · rw [if_pos h4]
      exact .writes (by simp [hl, h4]) (by simp [labelReq, hl, h4])
    · rw [if_neg (by simp [h5])]
      exact .writes (by simp [hl, h5]) (by simp [labelReq, hl, h5])
  all_goals exact .goes (by simp [labelReq, hl])

/-! ### Its refusals -/

/-- A read response outside the port's contract (R82, R119). -/
theorem legalRead_eq_false_iff {n : Nat} {ok : Bool} {d : List Byte} :
    legalRead n ok d = false ↔ n < d.length ∨ (ok = true ∧ d.length < n) := by
  cases ok
  · simp [legalRead]
  · simp only [legalRead, Bool.not_true, Bool.false_or, Bool.and_eq_false_imp, decide_eq_true_eq,
      beq_eq_false_iff_ne, true_and]
    omega

/-- At its place with its request outstanding, a read declines such a response (R119, I6). -/
theorem busRead_contract {here : Bool} {n : Nat} {clear : State → State} {fill : List Byte → State → State}
    {k : Bool → State → State} {ok : Bool} {d : List Byte} {rest : List Input} (hh : here = true)
    (hr : s.req = some (.bus (memRead s.params.lit n))) (hin : s.inputs = .readAnswer ok d :: rest)
    (hno : legalRead n ok d = false) : busRead here n clear fill k s = .refused .busContract := by
  simp [busRead, hh, hr, hin, hno]

/-- A port request is refused only where another one is outstanding. -/
theorem awaitPort_refused {q : Req} {take : Input → Option (State → State)} (h : awaitPort q take s = .refused r) :
    ∃ q', s.req = some q' ∧ q' ≠ q := by
  unfold awaitPort at h
  split at h
  case h_1 => cases h
  case h_2 q' hr =>
    split at h
    case isTrue => split at h <;> cases h
    case isFalse hq => exact ⟨q', hr, hq⟩

/-- The outstanding read is answered outside the port's contract. -/
def State.offContract (s : State) : Prop :=
  ∃ q ok d rest, s.req = some (.bus q) ∧ q.read = true ∧ s.inputs = .readAnswer ok d :: rest ∧
    legalRead q.len.toNat ok d = false

/-- The LEN of a read of fewer than 256 bytes is their number (R118). -/
theorem memRead_len {l : Literals} {n : Nat} (hn : n < 256) : (memRead l n).len.toNat = n :=
  Nat.mod_eq_of_lt hn

/-- An answer outside the contract is refused by the TCB's own move (R119, I6). -/
theorem State.OwnMove.offContract {m : Result} (hm : s.OwnMove m) (h : s.Valid) (hc : s.offContract) :
    m = .refused .busContract := by
  obtain ⟨q, ok, d, rest, hr, hread, hin, hno⟩ := hc
  have hq := h.request _ hr
  cases hm with
  | writes place own =>
    cases hq.symm.trans own
    cases hread
  | reads place fits own =>
    cases hq.symm.trans own
    exact busRead_contract place hr hin (by rwa [memRead_len fits] at hno)
  | asks own port => exact absurd (Option.some.inj (own.symm.trans hq)) (port q)
  | goes own => cases hq.symm.trans own

/-- The TCB's own move refuses nothing else: a request outstanding at a label is the label's own (R55). -/
theorem State.OwnMove.refused {m : Result} (hm : s.OwnMove m) (h : s.Valid) (hr : m = .refused r) :
    r = .busContract ∧ s.offContract := by
  have hown {q q' : Req} (own : labelReq s = some q) (hq' : s.req = some q') : q' = q :=
    Option.some.inj ((h.request q' hq').symm.trans own)
  cases hm with
  | writes place own =>
    obtain ⟨-, hh | ⟨q, hq, hne⟩⟩ := busWrite_refused hr
    · exact absurd (hh.symm.trans place) nofun
    · exact absurd (hown own hq) hne
  | reads place fits own =>
    obtain ⟨-, hh | ⟨q, hq, hne⟩⟩ | ⟨rfl, ok, d, rest, hin, hno⟩ := busRead_refused hr
    · exact absurd (hh.symm.trans place) nofun
    · exact absurd (hown own hq) hne
    · cases hreq : s.req with
      | none =>
        subst place
        cases (busRead_issue hreq).symm.trans hr
      | some q =>
        obtain rfl := hown own hreq
        exact ⟨rfl, _, ok, d, rest, hreq, rfl, hin, by rwa [memRead_len fits]⟩
  | asks own =>
    obtain ⟨q, hq, hne⟩ := awaitPort_refused hr
    exact absurd (hown own hq) hne
  | goes => cases hr

/-! ### A step's refusals -/

/-- A host write runs a command only at CMD while BUSY = 0 (R115, R116). -/
theorem State.hostWrite_runs {index v : Nat} {i : Instr} (h : s.hostWrite index v = .runs i) :
    index = 0x00 ∧ s.busy = false ∧ decodeCmd16 (field v 0 s.params.lit.hregW) = .ok i := by
  unfold State.hostWrite at h
  split at h
  case isTrue h0 =>
    split at h
    case isTrue => cases h
    case isFalse hb =>
      split at h
      case h_1 j hd => cases h; exact ⟨h0, by simpa using hb, hd⟩
      case h_2 => cases h
  case isFalse => split at h <;> cases h

/-- Everything a refused step can be: a command refused, or the TCB's own move. -/
theorem step_refused (h : step s = .refused r) :
    (∃ w rest i, s.inputs = .hostWrite 0x00 w :: rest ∧ s.busy = false ∧
        decodeCmd16 (field w 0 s.params.lit.hregW) = .ok i ∧ exec i s.quiet.taken = .refused r) ∨
      s.quiet.proceed.run = .refused r ∨ (s.req = none ∧ s.quiet.taken.proceed.run = .refused r) := by
  have hoffered (a : Input) (ho : (s.quiet.offered a).run = .refused r) : s.quiet.proceed.run = .refused r := by
    unfold State.offered at ho
    split at ho
    · split at ho
      · exact ho
      · cases ho
    · split at ho
      · cases ho
      · exact ho
  cases hin : s.inputs with
  | nil => exact .inr (.inl ((step_nil hin).symm.trans h))
  | cons a rest =>
    cases a with
    | hostWrite index v =>
      simp only [step, action, hin] at h
      split at h
      case h_1 => cases h
      case h_2 i hw =>
        obtain ⟨rfl, hb, hd⟩ := State.hostWrite_runs hw
        exact .inl ⟨v, rest, i, rfl, hb, hd, h⟩
    | tick =>
      cases hr : s.req with
      | none => exact .inr (.inr ⟨rfl, (step_tick hin hr).symm.trans h⟩)
      | some q =>
        simp only [step, action, hin, hr] at h
        cases h
    | hardwareReset | hostRead | pinEdge | lateAnswer =>
      simp only [step, action, hin] at h
      cases h
    | readAnswer | writeAnswer | delayDone | claimAnswer =>
      exact .inr (.inl (hoffered _ ((step_offered hin rfl).symm.trans h)))

theorem execInit_refused (h : execInit s = .refused r) :
    r = .explicitBlExitUnmodelled ∧ s.params.explicitBlExit = true := by
  unfold execInit at h
  split at h
  · cases h
  split at h
  · cases h
  split at h
  case isTrue hx => cases h; exact ⟨rfl, hx⟩
  case isFalse => cases h

/-- Of the commands INIT alone can be refused, under EXPLICIT_BL_EXIT = true (R240). -/
theorem exec_command_refused {w : Nat} {i : Instr} (hd : decodeCmd16 w = .ok i) (h : exec i s = .refused r) :
    i = .init ∧ r = .explicitBlExitUnmodelled ∧ s.params.explicitBlExit = true := by
  obtain rfl | rfl | ⟨n, rfl⟩ | rfl | rfl | rfl := decodeCmd16_command hd
  · exact ⟨rfl, execInit_refused h⟩
  all_goals exact absurd h runSession_not_refused

/-- Settles O33: the contract by `OwnMove.offContract`, INIT by `execInit_idle`; and, by `step_refused`, no more. -/
theorem namedRefusals : Obligations.NamedRefusals := by
  unfold Obligations.NamedRefusals
  intro s h
  refine ⟨fun q ok d rest hr hread hin hno => ?_, fun hx ⟨rest, hin⟩ => ?_, fun r hstep => ?_⟩
  · have hu : s.quiet.Valid := h.passes _ _ _
    rw [step_answer hin hr hread]
    exact hu.proceed_ownMove.offContract hu ⟨q, ok, d, rest, hr, hread, hin, legalRead_eq_false_iff.mpr hno⟩
  · have hst : s.st = .uninit := h.explicitExit hx
    have hw : s.params.lit.hregW = 16 := by simp [h.literals]
    rw [step_decoded hw hin (s.busy_eq_false_iff.mpr (.inl hst)) rfl]
    refine (execInit_idle ?_).trans (if_pos ?_)
    · exact .inl hst
    · exact hx
  · obtain ⟨w, rest, i, hin, -, hd, hexec⟩ | hgo | ⟨hfree, hgo⟩ := step_refused hstep
    · obtain ⟨rfl, rfl, hx⟩ := exec_command_refused hd hexec
      refine .inl ⟨rfl, hx, w, rest, hin, fun hlt => ?_⟩
      rwa [h.literals, Literals.shown_widths.2.1, field_of_lt hlt, decodeCmd16_init_iff] at hd
    · have hu : s.quiet.Valid := h.passes _ _ _
      obtain ⟨rfl, q, ok, d, rest, hr, hread, hin, hno⟩ := hu.proceed_ownMove.refused hu hgo
      exact .inr ⟨rfl, q, ok, d, rest, hr, hread, hin, legalRead_eq_false_iff.mp hno⟩
    · have hu : s.quiet.taken.Valid := h.passes _ _ _
      obtain ⟨-, q, ok, d, rest, hr, -⟩ := hu.proceed_ownMove.refused hu hgo
      cases hfree.symm.trans hr

end Sys2Proof.Machine
end

section
/-! Big-endian words (R170, R175): `be16` joins a high and a low byte, and each is the word's own half. -/

namespace Sys2Proof.Machine

variable (v : Word) (hi lo : Byte)

/-- The two halves of a word join to the word (R175). -/
@[simp] theorem be16_bytes : be16 (v.extractLsb' 8 8) (v.extractLsb' 0 8) = v :=
  calc be16 (v.extractLsb' 8 8) (v.extractLsb' 0 8)
    _ = v.extractLsb' 8 8 ++ v.extractLsb' 0 8 := be16_eq_append _ _
    _ = v.extractLsb' 0 (8 + 8) := BitVec.extractLsb'_append_extractLsb'_eq_extractLsb' rfl
    _ = v := BitVec.extractLsb'_eq_self

/-- Bits [15:8] of a joined word are its first byte. -/
@[simp] theorem be16_highByte : (be16 hi lo).extractLsb' 8 8 = hi := by
  rw [be16_eq_append]
  exact BitVec.extractLsb'_append_eq_left

/-- Bits [7:0] of a joined word are its second byte. -/
@[simp] theorem be16_lowByte : (be16 hi lo).extractLsb' 0 8 = lo := by
  rw [be16_eq_append]
  exact BitVec.extractLsb'_append_eq_right

/-- Settles O44: `be16` is the concatenation of its bytes, so taking halves and joining undo each other. -/
theorem bigEndian : Obligations.BigEndian := by
  unfold Obligations.BigEndian
  exact ⟨be16_toNat, be16_bytes, fun h l => ⟨be16_highByte h l, be16_lowByte h l⟩⟩

end Sys2Proof.Machine
end

section
/-! The handshake (R200 to R207): the flip, and what the answer to HS_WR and the end of the retry delay leave. -/

namespace Sys2Proof.Machine

variable {s : State}

/-! ### The flip -/

/-- Bit by bit, the flip is XOR with a byte whose bit 7 alone is set (R200). -/
theorem flipHsBit_getLsbD (b : Byte) (i : Nat) :
    (flipHsBit .shown b).getLsbD i = (b.getLsbD i ^^ decide (i = 7)) := by
  have hmask : (0x80 : Byte).getLsbD i = decide (i = 7) := by
    rw [show (0x80 : Byte) = BitVec.twoPow 8 7 from rfl, BitVec.getLsbD_twoPow]
    simp [eq_comm]
  rw [flipHsBit_shown, BitVec.getLsbD_xor, hmask]

theorem flipHsBit_bit7 (b : Byte) : (flipHsBit .shown b).getLsbD 7 = !b.getLsbD 7 := by
  rw [flipHsBit_getLsbD, decide_eq_true rfl, Bool.xor_true]

theorem flipHsBit_lowBits (b : Byte) {i : Nat} (hi : i < 7) : (flipHsBit .shown b).getLsbD i = b.getLsbD i := by
  rw [flipHsBit_getLsbD, decide_eq_false hi.ne, Bool.xor_false]

/-- A fixed point would have a bit 7 equal to its own inverse (R207). -/
theorem flipHsBit_ne (b : Byte) : flipHsBit .shown b ≠ b := fun h =>
  Bool.not_ne_self (b.getLsbD 7) ((flipHsBit_bit7 b).symm.trans (congrArg (BitVec.getLsbD · 7) h))

/-- Settles O46: the flip acts on bit 7 alone, so it has no fixed point; as an XOR it undoes itself. -/
theorem flipInvolution : Obligations.FlipInvolution := by
  unfold Obligations.FlipInvolution
  exact fun b => ⟨flipHsBit_bit7 b, fun _ => flipHsBit_lowBits b, flipHsBit_flipHsBit .shown b, flipHsBit_ne b⟩

/-! ### The answer to HS_WR -/

/-- A write with R10's parameters, at its place with its request outstanding, takes the answer. -/
theorem busWrite_answer_shown {here : Bool} {d : List Byte} {k : Bool → State → State} {ok : Bool} {rest : List Input}
    (hh : here = true) (hlit : s.params.lit = .shown) (hr : s.req = some (.bus (memWrite .shown d)))
    (hin : s.inputs = .writeAnswer ok :: rest) : busWrite here d k s = .next (k ok s.answered) := by
  subst hh
  exact busWrite_answer (hlit.symm ▸ hr) hin

/-- Settles O30: the write is at its place, for the byte is the flip of HSB; `ok` says what follows. -/
theorem handshakeWriteAnswered : Obligations.HandshakeWriteAnswered := by
  unfold Obligations.HandshakeWriteAnswered
  intro s rest hlit hl hr hha
  have hrun (ok : Bool) (hin : s.inputs = .writeAnswer ok :: rest) :
      exec (.hsWr (s.hsb ^^^ 0x80)) s = .next (State.handshakeWritten ok { s with req := none, inputs := rest }) := by
    rw [← State.answered_eq hin]
    exact busWrite_answer_shown (by simp [hl, hlit, flipHsBit_shown]) hlit hr hin
  refine ⟨fun hin => ⟨BitVec.ofNat 5 s.ha, ?_, hrun true hin⟩, hrun false⟩
  rw [BitVec.toNat_ofNat]
  omega

/-! ### The end of the retry delay -/

/-- The last attempt gives up: HS_GAVE_UP, and the handshake ends (R203). -/
theorem State.handshakeDelayed_last (h : s.ha = s.params.lit.hsMaxAttempts) :
    s.handshakeDelayed = State.endHandshake { s with diag := { s.diag with hsGaveUp := true } } :=
  if_pos h

/-- Any other attempt is followed by the next (R203). -/
theorem State.handshakeDelayed_again (h : s.ha ≠ s.params.lit.hsMaxAttempts) :
    s.handshakeDelayed = { s with lbl := .hsRd, ha := s.ha + 1 } :=
  if_neg h

/-- Settles O37: the delay's end is given to `handshakeDelayed`, where HA chooses between its two ends. -/
theorem handshakeDelayAnswered : Obligations.HandshakeDelayAnswered := by
  unfold Obligations.HandshakeDelayAnswered
  intro s rest hlit hl hr hin
  have hrun : step s =
      .next (State.handshakeDelayed { s with touchIrq := false, req := none, inputs := rest }) := by
    have hms : s.params.lit.hsRetryMs = 5 := by simp [hlit]
    calc step s
      _ = s.quiet.proceed.run := step_answer hin hr rfl
      _ = delayStep s.params.lit.hsRetryMs State.handshakeDelayed s.quiet := by
        simp only [State.proceed, fetchBus, portStep, State.quiet, hl, Action.run_ends]
      _ = .next s.quiet.answered.handshakeDelayed := delayStep_answer (hms.symm ▸ hr) hin
      _ = _ := by rw [State.answered_eq (s := s.quiet) hin]; rfl
  refine ⟨fun hlast => ?_, fun hmore => ?_⟩
  · rw [hrun, State.handshakeDelayed_last (by simp [hlit, hlast])]
    simp only [State.endHandshake, hlast]
    rfl
  · rw [hrun, State.handshakeDelayed_again (by simp [hlit, hmore.ne])]

end Sys2Proof.Machine
end

section
/-! The bring-up step by step (R231 to R243): the TCB's own move at each of its labels, and what the step there leaves
when it sends, when its wait is over, when its claim or its write is answered. -/

namespace Sys2Proof.Machine

variable {s : State} {rest : List Input}

/-! ### The TCB's own move at a label -/

theorem proceed_clRst (hl : s.lbl = .clRst) :
    s.proceed.run = claimStep s.rstPin .out State.rstClaimAnswered s := by
  simp only [State.proceed, fetchBus, portStep, hl, Action.run_ends]

theorem proceed_clInt (hl : s.lbl = .clInt) :
    s.proceed.run = claimStep s.intPin (.inEdge s.activeEdge) State.intClaimAnswered s := by
  simp only [State.proceed, fetchBus, portStep, hl, Action.run_ends]

theorem proceed_tdRst (hl : s.lbl = .tdRst) : s.proceed.run = .next (s.releaseRst.finish .failed .errInit) := by
  simp only [State.proceed, fetchBus, portStep, hl, Action.run_ends]

theorem proceed_rsAssert (hl : s.lbl = .rsAssert) :
    s.proceed.run = .next ((s.gpioSet s.rstPin s.rstLvl).goto .rsHold1) := by
  simp only [State.proceed, fetchBus, portStep, hl, Action.run_ends]

theorem proceed_rsHold1 (hl : s.lbl = .rsHold1) :
    s.proceed.run = delayStep s.params.lit.rstHoldMs (State.goto .rsRelease) s := by
  simp only [State.proceed, fetchBus, portStep, hl, Action.run_ends]

theorem proceed_rsRelease (hl : s.lbl = .rsRelease) :
    s.proceed.run = .next ((s.gpioSet s.rstPin !s.rstLvl).goto .rsHold2) := by
  simp only [State.proceed, fetchBus, portStep, hl, Action.run_ends]

theorem proceed_rsHold2 (hl : s.lbl = .rsHold2) :
    s.proceed.run = delayStep s.params.lit.rstHoldMs State.enterSoftReset s := by
  simp only [State.proceed, fetchBus, portStep, hl, Action.run_ends]

theorem proceed_srWr (hl : s.lbl = .srWr) :
    s.proceed.run = busWrite true s.params.lit.softResetCmd State.softResetWritten s := by
  simp only [State.proceed, fetchBus, hl, Action.run_runs, exec, execSoftResetWr, decide_true]

theorem proceed_srWait (hl : s.lbl = .srWait) :
    s.proceed.run = delayStep s.params.lit.srWaitMs State.enterKeyUnlock s := by
  simp only [State.proceed, fetchBus, portStep, hl, Action.run_ends]

theorem proceed_kyWr (hl : s.lbl = .kyWr) :
    s.proceed.run = busWrite true s.params.lit.keySeq State.keyWritten s := by
  simp only [State.proceed, fetchBus, hl, Action.run_runs, exec, execKeyUnlockWr, decide_true]

theorem proceed_kyWait (hl : s.lbl = .kyWait) :
    s.proceed.run = delayStep s.params.lit.keyWaitMs State.enterAwaitBootExit s := by
  simp only [State.proceed, fetchBus, portStep, hl, Action.run_ends]

theorem proceed_blDly (hl : s.lbl = .blDly) :
    s.proceed.run = delayStep s.params.lit.blPollMs (State.goto .blRd) s := by
  simp only [State.proceed, fetchBus, portStep, hl, Action.run_ends]

theorem proceed_blRd (hl : s.lbl = .blRd) :
    s.proceed.run =
      busRead true s.params.lit.blFrameLen State.clearBlbuf State.fillBlbuf State.bootStatusRead s := by
  simp only [State.proceed, fetchBus, hl, Action.run_runs, exec, execBlStatusRd, decide_true]

theorem proceed_eoDly (hl : s.lbl = .eoDly) :
    s.proceed.run = delayStep s.params.lit.eoWaitMs (State.goto .eoRd) s := by
  simp only [State.proceed, fetchBus, portStep, hl, Action.run_ends]

theorem proceed_eoRd (hl : s.lbl = .eoRd) :
    s.proceed.run =
      busRead true s.params.frameReadLen.toNat State.clearFrame State.fillFrame State.frameRead s := by
  simp only [State.proceed, fetchBus, hl, Action.run_runs, exec, execFrameRd, decide_true, Bool.true_or,
    Bool.and_self]

theorem proceed_done (hl : s.lbl = .done) : s.proceed.run = .next s.endCommand := by
  simp only [State.proceed, fetchBus, portStep, hl, Action.run_ends]

/-! ### A step that takes a tick, the end of a wait or a claim's answer -/

/-- A tick with nothing outstanding is the TCB's own move. -/
theorem step_tick_own {r : Result} (hin : s.inputs = .tick :: rest) (hr : s.req = none)
    (hgo : ({ s with touchIrq := false, inputs := rest } : State).proceed.run = r) : step s = r := by
  rw [step_tick hin hr, State.quiet_taken hin, hgo]

/-- The end of the wait that a label asked for is followed by what the label says (R330). -/
theorem step_delayDone {ms : Byte} {next : State → State} (hgo : s.quiet.proceed.run = delayStep ms next s.quiet)
    (hr : s.req = some (.delay ms)) (hin : s.inputs = .delayDone :: rest) :
    step s = .next (next { s with touchIrq := false, inputs := rest, req := none }) :=
  calc step s
    _ = s.quiet.proceed.run := step_answer hin hr rfl
    _ = .next (next s.quiet.answered) := hgo.trans (delayStep_answer hr hin)
    _ = _ := by rw [State.answered_eq (s := s.quiet) hin]; rfl

/-- So is the answer to the claim that a label made (R331). -/
theorem step_claimAnswer {pin : Nat} {dir : PinDir} {next : Bool → State → State} {ok : Bool}
    (hgo : s.quiet.proceed.run = claimStep pin dir next s.quiet) (hr : s.req = some (.claim pin dir))
    (hin : s.inputs = .claimAnswer ok :: rest) :
    step s = .next (next ok { s with touchIrq := false, inputs := rest, req := none }) :=
  calc step s
    _ = s.quiet.proceed.run := step_answer hin hr rfl
    _ = .next (next ok s.quiet.answered) := hgo.trans (claimStep_answer hr hin)
    _ = _ := by rw [State.answered_eq (s := s.quiet) hin]; rfl

/-! ### INIT refused, its writes, waits, pulse and claims, and the commands' ends -/

/-- Settles O22: the refusal of `execInit_idle`. -/
theorem explicitExitRefused : Obligations.ExplicitExitRefused := by
  unfold Obligations.ExplicitExitRefused
  intro s hst hx
  exact (execInit_idle hst).trans (if_pos hx)

/-- Settles O26: both writes are at their places and take the answer by `busWrite_answer_shown`. -/
theorem bringUpWritesAnswered : Obligations.BringUpWritesAnswered := by
  unfold Obligations.BringUpWritesAnswered
  intro s ok rest hlit hin
  have hsoft : s.params.lit.softResetCmd = [0x01] := by simp [hlit]
  have hkey : s.params.lit.keySeq = [0x00, 0xFF, 0xA5, 0x00, 0x01, 0x02, 0x03, 0x04, 0x05, 0x06, 0x07] := by
    simp [hlit]
  refine ⟨fun hl hr => ?_, fun hl hr => ?_⟩
  · refine (busWrite_answer_shown (by simp [hl]) hlit (hsoft.symm ▸ hr) hin).trans ?_
    rw [State.answered_eq hin]
    rfl
  · refine (busWrite_answer_shown (by simp [hl]) hlit (hkey.symm ▸ hr) hin).trans ?_
    rw [State.answered_eq hin]
    rfl

/-- Settles O36: `step_delayDone` at each of the six labels. -/
theorem bringUpWaitsAnswered : Obligations.BringUpWaitsAnswered := by
  unfold Obligations.BringUpWaitsAnswered
  intro s rest hlit hin u
  obtain ⟨-, hpoll, hhold, hsoft, hkey, hconfirm⟩ := Literals.shown_waits
  rw [← hlit] at hpoll hhold hsoft hkey hconfirm
  refine ⟨fun hl hr => ?_, fun hl hr => ?_, fun hl hr => ?_, fun hl hr => ?_, fun hl hr => ?_, fun hl hr => ?_⟩
  · exact step_delayDone (proceed_rsHold1 (s := s.quiet) hl) (hhold.symm ▸ hr) hin
  · exact step_delayDone (proceed_rsHold2 (s := s.quiet) hl) (hhold.symm ▸ hr) hin
  · exact step_delayDone (proceed_srWait (s := s.quiet) hl) (hsoft.symm ▸ hr) hin
  · exact step_delayDone (proceed_kyWait (s := s.quiet) hl) (hkey.symm ▸ hr) hin
  · exact step_delayDone (proceed_blDly (s := s.quiet) hl) (hpoll.symm ▸ hr) hin
  · exact step_delayDone (proceed_eoDly (s := s.quiet) hl) (hconfirm.symm ▸ hr) hin

/-- RST_PIN and INT_PIN as bits of CFG (R34). -/
theorem State.pins_eq (hw : s.params.lit.pinW = 6) : s.rstPin = field s.cfg 4 6 ∧ s.intPin = field s.cfg 10 6 := by
  unfold State.rstPin State.intPin
  rw [hw]
  exact ⟨rfl, rfl⟩

/-- Settles O38: the tick runs the pulse's label. -/
theorem resetPulse : Obligations.ResetPulse := by
  unfold Obligations.ResetPulse
  intro s rest hw hr hin pin level
  have hpin : s.rstPin = pin := (State.pins_eq hw).1
  refine ⟨fun hl => ?_, fun hl => ?_⟩
  · rw [← hpin]
    exact step_tick_own hin hr (proceed_rsAssert hl)
  · rw [← hpin]
    exact step_tick_own hin hr (proceed_rsRelease hl)

/-- After the reset line's claim: the interrupt line's, or the reset pulse, or the soft reset (R231, R233). -/
theorem State.rstClaimAnswered_true (s : State) :
    s.rstClaimAnswered true =
      if s.intEn then { s with rstClaimed := true, lbl := .clInt }
      else if s.rstEn then { s with rstClaimed := true, st := .resetting, lbl := .rsAssert }
      else { s with rstClaimed := true, st := .softReset, lbl := .srWr } := rfl

/-- After the interrupt line's claim: the reset pulse, or the soft reset (R231, R233). -/
theorem State.intClaimAnswered_true (s : State) :
    s.intClaimAnswered true =
      if s.rstEn then { s with intClaimed := true, st := .resetting, lbl := .rsAssert }
      else { s with intClaimed := true, st := .softReset, lbl := .srWr } := rfl

/-- Settles O39: the claims asked by `awaitPort_issue`, their answers by `step_claimAnswer`. -/
theorem claimsMade : Obligations.ClaimsMade := by
  unfold Obligations.ClaimsMade
  intro s rest hw
  obtain ⟨hrst, hint⟩ := State.pins_eq hw
  rw [← hrst, ← hint]
  intro rstPin intPin dir rst int resetEnabled ask u
  refine ⟨fun hin hr => ⟨fun hl => ?_, fun hl => ?_⟩, fun hin => ⟨fun hl hr hi => ?_, fun hl hr hi he => ?_,
    fun hl hr he => ?_, fun hl hr he => ?_⟩⟩
  · exact step_tick_own hin hr ((proceed_clRst (s := { s with touchIrq := false, inputs := rest }) hl).trans
      (awaitPort_issue hr))
  · exact step_tick_own hin hr ((proceed_clInt (s := { s with touchIrq := false, inputs := rest }) hl).trans
      (awaitPort_issue hr))
  · refine (step_claimAnswer (proceed_clRst (s := s.quiet) hl) hr hin).trans (congrArg _ ?_)
    exact (State.rstClaimAnswered_true _).trans (if_pos hi)
  · refine (step_claimAnswer (proceed_clRst (s := s.quiet) hl) hr hin).trans (congrArg _ ?_)
    exact (State.rstClaimAnswered_true _).trans ((if_neg (Bool.eq_false_iff.mp hi)).trans (if_pos he))
  · refine (step_claimAnswer (proceed_clInt (s := s.quiet) hl) hr hin).trans (congrArg _ ?_)
    exact (State.intClaimAnswered_true _).trans (if_pos he)
  · refine (step_claimAnswer (proceed_clInt (s := s.quiet) hl) hr hin).trans (congrArg _ ?_)
    exact (State.intClaimAnswered_true _).trans (if_neg (Bool.eq_false_iff.mp he))

/-- Settles O42: at DONE the tick runs `endCommand`. -/
theorem commandsEnd : Obligations.CommandsEnd := by
  unfold Obligations.CommandsEnd
  intro s rest hr hin hl
  exact step_tick_own hin hr (proceed_done hl)

end Sys2Proof.Machine
end

section
/-! ST moves along the two transition tables (R243, R279): what each move of the procedures and each command's start
does to it. -/

namespace Sys2Proof.Machine

variable {s t : State}

/-- ST stays, or moves along a transition table. -/
def State.Advances (s t : State) : Prop := t.st = s.st ∨ stMoves s.st t.st = true

/-! ### The moves with more than one end -/

theorem State.initFail_advances (hst : s.st = .claim) : s.Advances s.initFail := by
  unfold State.initFail
  split
  · exact .inl rfl
  · exact .inr (by simp [stMoves, hst])

theorem State.rstClaimAnswered_advances (hst : s.st = .claim) (ok : Bool) : s.Advances (s.rstClaimAnswered ok) := by
  cases ok
  · exact State.initFail_advances hst
  · rw [State.rstClaimAnswered_true]
    split
    · exact .inl rfl
    · split <;> exact .inr (by simp [stMoves, hst])

theorem State.intClaimAnswered_advances (hst : s.st = .claim) (ok : Bool) : s.Advances (s.intClaimAnswered ok) := by
  cases ok
  · exact State.initFail_advances hst
  · rw [State.intClaimAnswered_true]
    split <;> exact .inr (by simp [stMoves, hst])

/-- The bootloader loop ends in EnterOperational or polls again (R236). -/
theorem State.bootStatusRead_advances (hst : s.st = .awaitBootExit) (ok : Bool) : s.Advances (s.bootStatusRead ok) := by
  unfold State.bootStatusRead
  dsimp only
  split
  · split
    · exact .inr (by simp [stMoves, hst, State.enterEnterOperational])
    · exact .inl rfl
  · exact .inr (by simp [stMoves, hst, State.enterEnterOperational])

/-- INIT ends in OPERATIONAL, and so does a poll; CLOSE ends in UNINIT (R238, R271, R275). -/
theorem State.Valid.endCommand_advances (h : s.Valid) (hl : s.lbl = .done) : s.Advances s.endCommand := by
  have hseq : ((s.st = .enterOperational ∧ s.curOp = 1) ∨ (s.st = .poll ∧ (s.curOp = 2 ∨ s.curOp = 3))) ∨
      (s.st = .closing ∧ s.curOp = 6) := by
    simpa [seqOk, hl] using h.position
  unfold State.endCommand
  obtain (⟨hst, hop⟩ | ⟨hst, hop | hop⟩) | ⟨hst, hop⟩ := hseq <;> exact .inr (by simp [stMoves, hst, hop])

theorem State.closeInterrupt_st (s : State) : s.closeInterrupt.st = s.st := by
  unfold State.closeInterrupt
  split <;> rfl

theorem State.handshakeDelayed_st (s : State) : s.handshakeDelayed.st = s.st := by
  unfold State.handshakeDelayed
  split <;> rfl

theorem State.pollDecode_st (s : State) : s.pollDecode.st = s.st := by
  unfold State.pollDecode
  dsimp only
  split <;> rfl

theorem State.zeroed_st (s : State) : s.zeroed.st = s.st := by
  unfold State.zeroed
  split <;> rfl

/-! ### Every move -/

/-- A procedure's move from its label: the invariant says in which ST the label stands. -/
theorem State.Goes.advances (hgo : s.Goes t) (h : s.Valid) : s.Advances t := by
  have hseq := h.position
  cases hgo with
  | asks => exact .inl s.zeroed_st
  | rstClaimed hl ok =>
    have hst : s.st = .claim := by simp_all [seqOk]
    exact State.rstClaimAnswered_advances (s := s.answered) hst ok
  | intClaimed hl ok =>
    have hst : s.st = .claim := by simp_all [seqOk]
    exact State.intClaimAnswered_advances (s := s.answered) hst ok
  | tornDown hl | heldInactive hl | softResetWaited hl | keyWaited hl | powered hl =>
    simp only [seqOk, hl, Bool.and_eq_true, decide_eq_true_eq] at hseq
    exact .inr (by rw [hseq.1]; rfl)
  | bootRead hl ok d =>
    have hst : s.st = .awaitBootExit := by simp_all [seqOk]
    exact State.bootStatusRead_advances (s := s.answered.fillBlbuf d) hst ok
  | shakeRead _ ok | shakeWritten _ ok => cases ok <;> exact .inl rfl
  | shakeDelayed => exact .inl s.answered.handshakeDelayed_st
  | decoded => exact .inl s.pollDecode_st
  | rstReleased => exact .inl s.releaseRst.closeInterrupt_st
  | ended hl => exact h.endCommand_advances hl
  | _ => exact .inl rfl

theorem State.closeStart_st (s : State) : s.closeStart.st = .closing := by
  unfold State.closeStart
  dsimp only
  split
  · rfl
  · exact State.closeInterrupt_st _

theorem State.initStart_st (s : State) : s.initStart.st = .claim ∨ s.initStart.st = .softReset := by
  rw [State.initStart_eq]
  split
  · exact .inl rfl
  · split
    · exact .inl rfl
    · exact .inr rfl

/-- A command's start leaves UNINIT, FAILED or OPERATIONAL for its first phase. -/
theorem State.Starts.advances (hs : s.Starts t) : s.Advances t := by
  cases hs with
  | rejects => exact .inl rfl
  | inits hst =>
    exact .inr (by obtain hst | hst := hst <;> simpa [stMoves, hst] using (s.latchCmd 1 0).initStart_st)
  | polls ho | powers ho => exact .inr (by simp [stMoves, ho, State.pollStart, State.powerStart])
  | closes ho => exact .inr (by simp [stMoves, ho, State.closeStart_st])

/-- Settles O49: a step is a reset, leaves ST, or is one of the moves above. -/
theorem stateTransitions : Obligations.StateTransitions := by
  unfold Obligations.StateTransitions
  intro s t h hstep hne
  have hadv (hadv : s.Advances t) : stMoves s.st t.st = true := hadv.resolve_left hne.symm
  cases step_steps hstep with
  | resets rest move => exact .inl ⟨rest, move, rfl⟩
  | configures | passes => exact absurd rfl hne
  | starts _ command => exact .inr (hadv command.advances)
  | goes inputs own => exact .inr (hadv (own.advances (h.passes _ _ _)))

end Sys2Proof.Machine
end

section
/-! Driven runs: what a fair environment answers, and how `drive` goes on from the state it has come to, by one step of
the TCB's own or by a request and its answer. -/

namespace Sys2Proof.Machine

variable {env : Env} {k : Nat} {u t : State}

/-! ### The answers of a fair environment (R338) -/

theorem Env.fair.delay (hf : env.fair) (k : Nat) (ms : Byte) : env k (.delay ms) = .delayDone := by
  have h := hf k (.delay ms)
  revert h
  cases env k (.delay ms) <;> simp [Req.legalAnswer]

theorem Env.fair.write (hf : env.fair) (k : Nat) {r : BusReq} (hr : r.read = false) :
    ∃ ok, env k (.bus r) = .writeAnswer ok := by
  have h := hf k (.bus r)
  revert h
  cases env k (.bus r) <;> simp [Req.legalAnswer, hr]

theorem Env.fair.read (hf : env.fair) (k : Nat) {r : BusReq} (hr : r.read = true) :
    ∃ ok d, env k (.bus r) = .readAnswer ok d ∧ legalRead r.len.toNat ok d = true := by
  have h := hf k (.bus r)
  revert h
  cases env k (.bus r) <;> simp [Req.legalAnswer, hr]

/-! ### One step -/

/-- A state as the TCB's own move finds it: with any request, any move offered and anything sent before. -/
def State.atPort (s : State) (r : Option Req) (l : List Input) (es : List Event) : State :=
  { s with touchIrq := false, req := r, inputs := l, trace := es }

theorem drive_start : drive env 0 u = .next u := rfl

/-- With nothing outstanding a run goes on by the TCB's own move. -/
theorem drive_own {m : Result} (h : drive env k u = .next t) (hr : t.req = none)
    (hgo : (t.atPort none [] t.trace).proceed.run = m) : drive env (k + 1) u = m := by
  rw [State.atPort, ← hr] at hgo
  calc drive env (k + 1) u
    _ = step { t with inputs := [env.offer k t] } := by rw [drive, h]
    _ = m := (step_offer_none hr).trans hgo

/-- So a run does not depend on a pulse or a move that stands where it starts. -/
theorem drive_atPort (hr : u.req = none) (k : Nat) :
    drive env (k + 1) u = drive env (k + 1) (u.atPort none [] u.trace) := by
  induction k with
  | zero =>
    have hsettled := drive_own (env := env) (u := u.atPort none [] u.trace) drive_start rfl rfl
    exact (drive_own drive_start hr rfl).trans hsettled.symm
  | succ k ih => rw [drive, ih, ← drive]

/-- An answer to the outstanding request is taken at once. -/
theorem drive_answered {q : Req} {a : Input} {m : Result} (h : drive env k u = .next t) (hr : t.req = some q)
    (ha : env k q = a) (hq : q.answeredBy a = true) (hgo : (t.atPort (some q) [a] t.trace).proceed.run = m) :
    drive env (k + 1) u = m := by
  rw [State.atPort, ← hr] at hgo
  have ho : env.offer k t = a := by simp [Env.offer, hr, ha]
  calc drive env (k + 1) u
    _ = step { t with inputs := [a] } := by rw [drive, h, ← ho]
    _ = m := (step_answer (s := { t with inputs := [a] }) rfl hr hq).trans hgo

/-! ### A request and its answer -/

/-- A state once its port interaction is over: the pulse ended, nothing offered or outstanding, one event sent. -/
def State.sent (e : Event) (s : State) : State := s.atPort none [] (e :: s.trace)

/-- A claim is answered (R331). -/
theorem drive_claim {pin : Nat} {dir : PinDir} {next : Bool → State → State} {ok : Bool}
    (h : drive env k u = .next t) (hr : t.req = none) (ha : env (k + 1) (.claim pin dir) = .claimAnswer ok)
    (hgo : ∀ r l es, (t.atPort r l es).proceed.run = claimStep pin dir next (t.atPort r l es)) :
    drive env (k + 2) u = .next (next ok (t.sent (.gpioClaim pin dir))) := by
  have hask := drive_own h hr ((hgo _ _ _).trans (awaitPort_issue rfl))
  exact drive_answered hask rfl ha rfl ((hgo _ _ _).trans (claimStep_answer rfl rfl))

/-- The delay of a label is over (R330). -/
theorem drive_delay {lbl : Lbl} {ms : Literals → Byte} {next : State → State} (hf : env.fair)
    (h : drive env k u = .next t) (hl : t.lbl = lbl) (hr : t.req = none)
    (hgo : ∀ {v : State}, v.lbl = lbl → v.proceed.run = delayStep (ms v.params.lit) next v) :
    drive env (k + 2) u = .next (next (t.sent (.delay (ms t.params.lit)))) := by
  have hat (r l es) : (t.atPort r l es).proceed.run = delayStep (ms t.params.lit) next (t.atPort r l es) := hgo hl
  have hask := drive_own h hr ((hat _ _ _).trans (awaitPort_issue rfl))
  exact drive_answered hask rfl (hf.delay _ _) rfl ((hat _ _ _).trans (delayStep_answer rfl rfl))

/-- The write of a label is answered (R84). -/
theorem drive_write {lbl : Lbl} {d : Literals → List Byte} {next : Bool → State → State} (hf : env.fair)
    (h : drive env k u = .next t) (hl : t.lbl = lbl) (hr : t.req = none)
    (hgo : ∀ {v : State}, v.lbl = lbl → v.proceed.run = busWrite true (d v.params.lit) next v) :
    ∃ ok, drive env (k + 2) u = .next (next ok (t.sent (.bus (memWrite t.params.lit (d t.params.lit))))) := by
  have hat (r l es) : (t.atPort r l es).proceed.run = busWrite true (d t.params.lit) next (t.atPort r l es) := hgo hl
  obtain ⟨ok, ha⟩ := hf.write (k + 1) (r := memWrite t.params.lit (d t.params.lit)) rfl
  have hask := drive_own h hr ((hat _ _ _).trans (busWrite_issue rfl))
  exact ⟨ok, drive_answered hask rfl ha rfl ((hat _ _ _).trans (busWrite_answer rfl rfl))⟩

/-- The read of a label is answered, over its zeroed buffer (R82, R160): `c` is the state with the buffer zeroed. -/
theorem drive_read {lbl : Lbl} {n : Params → Nat} {clear : State → State} {fill : List Byte → State → State}
    {next : Bool → State → State} {c : State} (hf : env.fair) (h : drive env k u = .next t) (hl : t.lbl = lbl)
    (hr : t.req = none)
    (hgo : ∀ {v : State}, v.lbl = lbl → v.proceed.run = busRead true (n v.params) clear fill next v)
    (hn : n t.params < 256) (hc : clear (t.atPort none [] t.trace) = c) (hcl : c.lbl = t.lbl)
    (hcp : c.params = t.params) :
    ∃ ok d, env (k + 1) (.bus (memRead t.params.lit (n t.params))) = .readAnswer ok d ∧
      drive env (k + 2) u = .next (next ok (fill d (c.sent (.bus (memRead t.params.lit (n t.params)))))) := by
  have hat (r l es) : (t.atPort r l es).proceed.run =
    busRead true (n t.params) clear fill next (t.atPort r l es) := hgo hl
  have hat' (r l es) : (c.atPort r l es).proceed.run =
    busRead true (n c.params) clear fill next (c.atPort r l es) := hgo (hcl.trans hl)
  obtain ⟨ok, d, ha, hlegal⟩ := hf.read (k + 1) (r := memRead t.params.lit (n t.params)) rfl
  have hask := drive_own h hr ((hat _ _ _).trans (busRead_issue rfl))
  rw [memRead_len hn] at hlegal
  rw [hc] at hask
  refine ⟨ok, d, ha, drive_answered hask rfl ha rfl ((hat' _ _ _).trans (busRead_answer ?_ rfl ?_))⟩
  · exact congrArg (fun p : Params => some (Req.bus (memRead p.lit (n p)))) hcp.symm
  · exact congrArg n hcp ▸ hlegal

end Sys2Proof.Machine
end

section
/-! INIT from its start to the first bus request (R231 to R233): the claims, the teardown after one that fails, and the
reset pulse, in a driven run. -/

namespace Sys2Proof.Machine

variable {env : Env} {k : Nat} {s u t : State}

/-! ### The claims and the pulse -/

/-- INIT before its first bus request, at a place with nothing outstanding: ST, LBL, the claims so far, and what it has
sent. -/
def State.initAt (s : State) (st : St) (l : Lbl) (rst int : Bool) (es : List Event) : State :=
  { s with
    st := st, lbl := l, rstClaimed := rst, intClaimed := int, touchIrq := false, req := none, inputs := []
    trace := es ++ s.trace }

section Places

variable {rst int ok : Bool} {es : List Event}

/-- The reset line's claim answered (R231). -/
theorem drive_rstClaim (h : drive env k u = .next (s.initAt .claim .clRst rst int es))
    (ha : env (k + 1) (.claim s.rstPin .out) = .claimAnswer ok) :
    drive env (k + 2) u =
      .next ((s.initAt .claim .clRst rst int (.gpioClaim s.rstPin .out :: es)).rstClaimAnswered ok) :=
  drive_claim h rfl ha fun _ _ _ => proceed_clRst rfl

/-- The interrupt line's claim answered (R231). -/
theorem drive_intClaim (h : drive env k u = .next (s.initAt .claim .clInt rst int es))
    (ha : env (k + 1) (.claim s.intPin (.inEdge s.activeEdge)) = .claimAnswer ok) :
    drive env (k + 2) u =
      .next ((s.initAt .claim .clInt rst int
        (.gpioClaim s.intPin (.inEdge s.activeEdge) :: es)).intClaimAnswered ok) :=
  drive_claim h rfl ha fun _ _ _ => proceed_clInt rfl

/-- After the reset line's claim: the interrupt line's, the reset pulse, or the soft reset (R231, R233). -/
theorem State.initAt_rstClaimed (s : State) :
    (s.initAt .claim .clRst rst int es).rstClaimAnswered true =
      if s.intEn then s.initAt .claim .clInt true int es
      else if s.rstEn then s.initAt .resetting .rsAssert true int es
      else s.initAt .softReset .srWr true int es := rfl

/-- After the interrupt line's claim: the reset pulse, or the soft reset (R231, R233). -/
theorem State.initAt_intClaimed (s : State) :
    (s.initAt .claim .clInt rst int es).intClaimAnswered true =
      if s.rstEn then s.initAt .resetting .rsAssert rst true es else s.initAt .softReset .srWr rst true es := rfl

end Places

/-- The state with no session standing: of the spec's registers, only CFG, ST, RESULT, the loop counters and the latched
command are kept (R58, R231, R275). -/
def State.noSession (s : State) : State :=
  { s with
    lbl := .idle, sleeping := false, rstClaimed := false, intClaimed := false, diag := Diag.zero
    regs := Published.zero, seen := [], frame := List.replicate s.params.lit.frameLayoutLen 0
    blbuf := List.replicate s.params.lit.blFrameLen 0, hsb := 0, req := none }

/-- In UNINIT and in FAILED none stands. -/
theorem State.Valid.noSession_eq (h : s.Valid) (hst : s.st = .uninit ∨ s.st = .failed) : s.noSession = s := by
  have hb : s.busy = false := s.busy_eq_false_iff.mpr (by tauto)
  have hcold : s.cold = true := by obtain hst | hst := hst <;> simp [State.cold, hst]
  have hlines : s.rstClaimed = false ∧ s.intClaimed = false := by
    have hc := h.claims
    obtain hst | hst := hst <;> simpa [claimsOk, hst] using hc
  have hseen : s.seen = [] := by simpa [hb] using h.torn
  have hawake := h.awake hcold
  have hidle := h.idle hb
  have hzero := h.coldZero hcold
  clear h hst hb hcold
  cases s
  simp_all [State.noSession]

/-- A started INIT with its session registers cleared, before its first claim (R231). -/
def State.initBase (s : State) : State := (s.latchCmd 1 0).sessionReset

/-- Where INIT starts: at the first claim that CFG asks for, else at the soft reset (R231, R233). -/
def State.initPlace (s : State) : St × Lbl :=
  if s.rstEn then (.claim, .clRst) else if s.intEn then (.claim, .clInt) else (.softReset, .srWr)

theorem State.initStart_place (s : State) : s.initStart = s.sessionReset.enter s.initPlace.1 s.initPlace.2 := by
  rw [State.initStart_eq, State.initPlace]
  split
  · rfl
  · split <;> rfl

theorem execInit_enters (hst : s.st = .uninit ∨ s.st = .failed) (hx : s.params.explicitBlExit = false) :
    exec .init s = .next (s.initBase.enter s.initPlace.1 s.initPlace.2) :=
  (execInit_idle hst).trans ((if_neg (by simp [hx])).trans (congrArg _ (State.initStart_place _)))

/-- Settles O58: the claim that fails ends in `initFail`, which releases the reset line if its claim succeeded. -/
theorem initClaimFails : Obligations.InitClaimFails := by
  unfold Obligations.InitClaimFails
  intro env s h hst hx
  obtain ⟨hrst, hint⟩ := State.pins_eq (s := s) (by simp [h.literals])
  have hstart := execInit_enters (s := s.noSession) hst hx
  rw [← hrst, ← hint, ← h.noSession_eq hst]
  intro rstPin intPin dir failed
  let b := s.noSession.initBase
  refine ⟨fun he ha => ?_, fun he hi ha => ?_, fun he hi ha ha' => ?_⟩
  · have hplace : s.noSession.initPlace = (.claim, .clRst) := if_pos he
    rw [hplace] at hstart
    have hfailed := drive_rstClaim (u := b.initAt .claim .clRst false false []) drive_start ha
    exact ⟨_, hstart, (drive_atPort rfl 1).trans hfailed⟩
  · have hplace : s.noSession.initPlace = (.claim, .clInt) := (if_neg (Bool.eq_false_iff.mp he)).trans (if_pos hi)
    rw [hplace] at hstart
    have hfailed := drive_intClaim (u := b.initAt .claim .clInt false false []) drive_start ha
    exact ⟨_, hstart, (drive_atPort rfl 1).trans hfailed⟩
  · have hplace : s.noSession.initPlace = (.claim, .clRst) := if_pos he
    rw [hplace] at hstart
    have hclaimed := drive_rstClaim (u := b.initAt .claim .clRst false false []) drive_start ha
    rw [State.initAt_rstClaimed, if_pos (show b.intEn = true from hi)] at hclaimed
    have hreleased := drive_own (drive_intClaim hclaimed ha') rfl (proceed_tdRst rfl)
    exact ⟨_, hstart, (drive_atPort rfl 4).trans hreleased⟩

end Sys2Proof.Machine
end

section
/-! INIT whose claims succeed (R230 to R242), phase by phase in a driven run against a fair environment. -/

namespace Sys2Proof.Machine

variable {env : Env} {k : Nat} {s u t : State}

/-! ### Counting events -/

section Counts

variable (l l' : List Event)

@[simp] theorem counts_nil :
    (∀ c, busCount c [] = 0) ∧ anyBusCount [] = 0 ∧ delayCount [] = 0 ∧ waitedMs [] = 0 :=
  ⟨fun _ => rfl, rfl, rfl, rfl⟩

@[simp] theorem counts_append :
    (∀ c, busCount c (l ++ l') = busCount c l + busCount c l') ∧
      anyBusCount (l ++ l') = anyBusCount l + anyBusCount l' ∧
      delayCount (l ++ l') = delayCount l + delayCount l' ∧ waitedMs (l ++ l') = waitedMs l + waitedMs l' :=
  ⟨fun _ => List.countP_append, List.countP_append, List.countP_append, by simp [waitedMs]⟩

@[simp] theorem counts_bus (r : BusReq) :
    (∀ c, busCount c (.bus r :: l) = busCount c l + if r.header .shown = c then 1 else 0) ∧
      anyBusCount (.bus r :: l) = anyBusCount l + 1 ∧ delayCount (.bus r :: l) = delayCount l ∧
      waitedMs (.bus r :: l) = waitedMs l := by
  simp [busCount, anyBusCount, delayCount, waitedMs, List.countP_cons]

@[simp] theorem counts_delay (ms : Byte) :
    (∀ c, busCount c (.delay ms :: l) = busCount c l) ∧ anyBusCount (.delay ms :: l) = anyBusCount l ∧
      delayCount (.delay ms :: l) = delayCount l + 1 ∧ waitedMs (.delay ms :: l) = ms.toNat + waitedMs l := by
  simp [busCount, anyBusCount, delayCount, waitedMs]

@[simp] theorem counts_gpioClaim (pin : Nat) (dir : PinDir) :
    (∀ c, busCount c (.gpioClaim pin dir :: l) = busCount c l) ∧
      anyBusCount (.gpioClaim pin dir :: l) = anyBusCount l ∧
      delayCount (.gpioClaim pin dir :: l) = delayCount l ∧ waitedMs (.gpioClaim pin dir :: l) = waitedMs l := by
  simp [busCount, anyBusCount, delayCount, waitedMs]

@[simp] theorem counts_gpioSet (pin : Nat) (level : Bool) :
    (∀ c, busCount c (.gpioSet pin level :: l) = busCount c l) ∧
      anyBusCount (.gpioSet pin level :: l) = anyBusCount l ∧
      delayCount (.gpioSet pin level :: l) = delayCount l ∧ waitedMs (.gpioSet pin level :: l) = waitedMs l := by
  simp [busCount, anyBusCount, delayCount, waitedMs]

end Counts

/-! ### The claims and the reset pulse -/

/-- What the reset pulse sends, the newest first (R233). -/
def State.pulseEvents (s : State) : List Event :=
  [.delay s.params.lit.rstHoldMs, .gpioSet s.rstPin !s.rstLvl, .delay s.params.lit.rstHoldMs,
    .gpioSet s.rstPin s.rstLvl]

/-- What the claims and the pulse that CFG asks for send, the newest first (R231, R233). -/
def State.lineEvents (s : State) : List Event :=
  (if s.rstEn then s.pulseEvents else ([] : List Event))
    ++ (if s.intEn then [.gpioClaim s.intPin (.inEdge s.activeEdge)] else [])
    ++ (if s.rstEn then [.gpioClaim s.rstPin .out] else [])

/-- The reset pulse: two levels posted, a hold after each (R233). -/
theorem drive_resetPulse (hf : env.fair) {rst int : Bool} {es : List Event}
    (h : drive env k u = .next (s.initAt .resetting .rsAssert rst int es)) :
    drive env (k + 6) u = .next (s.initAt .softReset .srWr rst int (s.pulseEvents ++ es)) := by
  have hassert : drive env (k + 1) u =
      .next (s.initAt .resetting .rsHold1 rst int (.gpioSet s.rstPin s.rstLvl :: es)) :=
    drive_own h rfl (proceed_rsAssert rfl)
  have hhold := drive_delay hf hassert rfl rfl proceed_rsHold1
  have hrelease : drive env (k + 4) u =
      .next (s.initAt .resetting .rsHold2 rst int
        (.gpioSet s.rstPin (!s.rstLvl) :: .delay s.params.lit.rstHoldMs :: .gpioSet s.rstPin s.rstLvl :: es)) :=
    drive_own hhold rfl (proceed_rsRelease rfl)
  exact drive_delay hf hrelease rfl rfl proceed_rsHold2

/-- INIT's start up to the soft reset, each claim granted (R231, R233). -/
theorem drive_lines (hf : env.fair) (hc : ∀ k pin dir, env k (.claim pin dir) = .claimAnswer true) (s : State) :
    ∃ n ≤ 10, drive env n (s.initAt s.initPlace.1 s.initPlace.2 false false []) =
      .next (s.initAt .softReset .srWr s.rstEn s.intEn s.lineEvents) := by
  unfold State.lineEvents State.initPlace
  cases he : s.rstEn
  · cases hi : s.intEn
    · exact ⟨0, by decide, drive_start⟩
    · have hint := drive_intClaim (u := s.initAt .claim .clInt false false []) drive_start (hc _ _ _)
      rw [State.initAt_intClaimed, he] at hint
      exact ⟨2, by decide, hint⟩
  · have hrst := drive_rstClaim (u := s.initAt .claim .clRst false false []) drive_start (hc _ _ _)
    rw [State.initAt_rstClaimed, he] at hrst
    cases hi : s.intEn <;> rw [hi] at hrst
    · exact ⟨8, by decide, drive_resetPulse hf hrst⟩
    · have hint := drive_intClaim hrst (hc _ _ _)
      rw [State.initAt_intClaimed, he] at hint
      exact ⟨10, by decide, drive_resetPulse hf hint⟩

/-! ### The soft reset and the key -/

/-- What the soft reset and the key send, the newest first (R234, R235). -/
def unlockEvents (l : Literals) : List Event :=
  [.delay l.keyWaitMs, .bus (memWrite l l.keySeq), .delay l.srWaitMs, .bus (memWrite l l.softResetCmd)]

/-- The soft reset's write and its wait (R234). -/
theorem drive_softReset (hf : env.fair) (h : drive env k u = .next t) (hl : t.lbl = .srWr) (hr : t.req = none) :
    ∃ ok : Bool, drive env (k + 4) u = .next
      { t with
        st := .keyUnlock, lbl := .kyWr, diag := { t.diag with srWrFail := t.diag.srWrFail || !ok }
        touchIrq := false, inputs := [], req := none
        trace :=
          .delay t.params.lit.srWaitMs :: .bus (memWrite t.params.lit t.params.lit.softResetCmd) :: t.trace } := by
  obtain ⟨ok, hwritten⟩ := drive_write hf h hl hr proceed_srWr
  exact ⟨ok, drive_delay hf hwritten rfl rfl proceed_srWait⟩

/-- The key's write and its wait, after which the bootloader loop starts at poll 1 (R235, R236). -/
theorem drive_key (hf : env.fair) (h : drive env k u = .next t) (hl : t.lbl = .kyWr) (hr : t.req = none) :
    ∃ ok : Bool, drive env (k + 4) u = .next
      { t with
        st := .awaitBootExit, lbl := .blDly, bi := 1, regs := { t.regs with blPolls := 1 }
        seen := t.seen ++ [{ t.regs with blPolls := 1 }]
        diag := { t.diag with keyWrFail := t.diag.keyWrFail || !ok }
        touchIrq := false, inputs := [], req := none
        trace :=
          .delay t.params.lit.keyWaitMs :: .bus (memWrite t.params.lit t.params.lit.keySeq) :: t.trace } := by
  obtain ⟨ok, hwritten⟩ := drive_write hf h hl hr proceed_kyWr
  exact ⟨ok, drive_delay hf hwritten rfl rfl proceed_kyWait⟩

/-! ### The bootloader loop -/

/-- A poll of the loop with its answer `b` in BLBUF, before the test of it (R236). -/
def State.bootPolled (s : State) (b : List Byte) : State :=
  { s with
    lbl := .blRd, blbuf := b, touchIrq := false, inputs := [], req := none
    trace := .bus (memRead s.params.lit s.params.lit.blFrameLen) :: .delay s.params.lit.blPollMs :: s.trace }

theorem drive_bootPoll (hf : env.fair) (h : drive env k u = .next t) (hlit : t.params.lit = .shown)
    (hl : t.lbl = .blDly) (hr : t.req = none) :
    ∃ ok b, b.length = 16 ∧ drive env (k + 4) u = .next ((t.bootPolled b).bootStatusRead ok) := by
  have hlen : t.params.lit.blFrameLen = 16 := by simp [hlit]
  have hwait := drive_delay hf h hl hr proceed_blDly
  obtain ⟨ok, d, -, hread⟩ := drive_read (n := fun p => p.lit.blFrameLen) hf hwait rfl rfl proceed_blRd
    (show t.params.lit.blFrameLen < 256 by omega) rfl rfl rfl
  exact ⟨ok, latch (List.replicate t.params.lit.blFrameLen 0) d, by simp [hlen], hread⟩

/-- What `p` polls of the loop send, the newest first (R236). -/
def bootPollEvents (l : Literals) : Nat → List Event
  | 0 => []
  | p + 1 => bootPollEvents l p ++ [.bus (memRead l l.blFrameLen), .delay l.blPollMs]

/-- The loop from a poll on, `n` polls before the last: it ends after `j` more (R236). -/
theorem drive_bootPolls {k : Nat} {t : State} (hf : env.fair) (n : Nat) (h : drive env k u = .next t)
    (hlit : t.params.lit = .shown) (hl : t.lbl = .blDly) (hr : t.req = none) (hn : t.bi + n = 10)
    (hp : { t.regs with blPolls := BitVec.ofNat 4 t.bi } = t.regs)
    (hd : t.diag.blTimeout = false ∧ t.diag.blBitClear = false) :
    ∃ (j : Nat) (failed late : Bool) (b : List Byte) (seen : List Published),
      j ≤ n ∧ (late = true → j = n) ∧ b.length = 16 ∧ drive env (k + 4 * (j + 1)) u = .next
        { t with
          st := .enterOperational, lbl := .eoDly, bi := t.bi + j
          regs := { t.regs with blPolls := BitVec.ofNat 4 (t.bi + j) }, seen := seen
          diag := { t.diag with blRdFail := failed, blTimeout := late, blBitClear := !late }
          frame := List.replicate t.params.lit.frameLayoutLen 0, blbuf := b
          touchIrq := false, inputs := [], req := none
          trace := bootPollEvents t.params.lit (j + 1) ++ t.trace } := by
  have hmax : t.params.lit.blMaxPolls = 10 := by simp [hlit]
  obtain ⟨ok, b, hb, hpoll⟩ := drive_bootPoll hf h hlit hl hr
  cases hbusy : blBusy t.params.lit b with
  | false =>
    rw [State.bootStatusRead_clear (s := t.bootPolled b) ok hbusy] at hpoll
    refine ⟨0, t.diag.blRdFail || !ok, false, b, t.seen, Nat.zero_le _, nofun, hb, hpoll.trans (congrArg _ ?_)⟩
    simp [State.bootPolled, bootPollEvents, hp, hd.1]
  | true =>
    cases n with
    | zero =>
      rw [State.bootStatusRead_timeout (s := t.bootPolled b) ok hbusy (hn.trans hmax.symm)] at hpoll
      refine ⟨0, t.diag.blRdFail || !ok, true, b, t.seen, Nat.le_refl _, fun _ => rfl, hb,
        hpoll.trans (congrArg _ ?_)⟩
      simp [State.bootPolled, bootPollEvents, hp, hd.2]
    | succ n =>
      have hmore : t.bi ≠ t.params.lit.blMaxPolls := by omega
      rw [State.bootStatusRead_again (s := t.bootPolled b) ok hbusy hmore] at hpoll
      have hn' : t.bi + 1 + n = 10 := by omega
      obtain ⟨j, failed, late, b', seen, hj, hlate, hb', hend⟩ :=
        drive_bootPolls hf n hpoll hlit rfl rfl hn' rfl hd
      refine ⟨j + 1, failed, late, b', seen, Nat.succ_le_succ hj, fun hl => congrArg (· + 1) (hlate hl), hb', ?_⟩
      have hk : k + 4 * (j + 1 + 1) = k + 4 + 4 * (j + 1) := by omega
      have hbi : t.bi + (j + 1) = t.bi + 1 + j := by omega
      have hes : bootPollEvents t.params.lit (j + 1 + 1) ++ t.trace =
          bootPollEvents t.params.lit (j + 1) ++ (t.bootPolled b).trace := by
        simp [bootPollEvents, State.bootPolled]
      rw [hk, hbi, hes]
      exact hend
termination_by n

/-! ### The confirmation read and the end -/

/-- What the confirmation sends, the newest first (R237). -/
def confirmEvents (p : Params) : List Event :=
  [.bus (memRead p.lit p.frameReadLen.toNat), .delay p.lit.eoWaitMs]

/-- Every command but CLOSE ends in OPERATIONAL (R238, R271). -/
theorem State.endCommand_operational (h : s.curOp ≠ 6) : s.endCommand = s.finish .operational .ok := by
  rw [State.endCommand, if_neg h]

/-- From EnterOperational to the end of INIT (R237, R238). -/
theorem drive_confirm (hf : env.fair) (h : drive env k u = .next t) (hlit : t.params.lit = .shown)
    (hl : t.lbl = .eoDly) (hr : t.req = none) (hop : t.curOp ≠ 6) :
    ∃ (ok : Bool) (f : List Byte), f.length = 14 ∧ drive env (k + 5) u = .next
      { t with
        st := .operational, lbl := .idle, result := .ok, seen := []
        diag := { t.diag with eoRdFail := t.diag.eoRdFail || !ok }
        frame := f, touchIrq := false, inputs := [], req := none, trace := confirmEvents t.params ++ t.trace } := by
  have hwait := drive_delay hf h hl hr proceed_eoDly
  dsimp only [State.sent, State.atPort, State.goto] at hwait
  obtain ⟨ok, d, -, hread⟩ := drive_read (n := fun p => p.frameReadLen.toNat) hf hwait rfl rfl proceed_eoRd
    (frameReadLen_lt t.params.frameReadLen) rfl rfl rfl
  rw [State.frameRead_of_eoRd _ ok rfl] at hread
  dsimp only [State.sent, State.atPort, State.goto, State.confirmationRead, State.fillFrame, State.clearFrame] at hread
  have hend := drive_own hread rfl ((proceed_done rfl).trans (congrArg _ (State.endCommand_operational hop)))
  exact ⟨ok, latch (List.replicate t.params.lit.frameLayoutLen 0) d, by simp [hlit], hend⟩

/-! ### The whole -/

/-- What INIT sends from its soft reset on, with `p` polls, the newest first (R234 to R237). -/
def bringUpEvents (q : Params) (p : Nat) : List Event :=
  confirmEvents q ++ (bootPollEvents q.lit p ++ unlockEvents q.lit)

/-- DIAG after a bring-up of `p` polls: the flags of a poll and of the power commands are 0, and exactly one of the
loop's two is 1, BL_TIMEOUT only after the last poll (R43, R236). -/
def Diag.booted (d : Diag) (p : Nat) : Prop :=
  d.frameRdFail = false ∧ d.hsGaveUp = false ∧ d.pwrWrFail = false ∧ d.blTimeout = !d.blBitClear ∧
    (d.blTimeout = true → p = 10)

/-- From the soft reset to the end of INIT (R234 to R238). -/
theorem drive_bringUp (hf : env.fair) (h : drive env k u = .next t) (hlit : t.params.lit = .shown)
    (hl : t.lbl = .srWr) (hr : t.req = none) (hop : t.curOp ≠ 6) (hd : t.diag = Diag.zero) :
    ∃ (j : Nat) (d : Diag) (f b : List Byte),
      j ≤ 9 ∧ d.booted (1 + j) ∧ f.length = 14 ∧ b.length = 16 ∧ drive env (k + (4 * j + 17)) u = .next
        { t with
          st := .operational, lbl := .idle, result := .ok, seen := [], diag := d, bi := 1 + j
          regs := { t.regs with blPolls := BitVec.ofNat 4 (1 + j) }, frame := f, blbuf := b
          touchIrq := false, inputs := [], req := none, trace := bringUpEvents t.params (j + 1) ++ t.trace } := by
  obtain ⟨ok, hsoft⟩ := drive_softReset hf h hl hr
  obtain ⟨ok', hkey⟩ := drive_key hf hsoft rfl rfl
  obtain ⟨j, failed, late, b, seen, hj, hlate, hb, hpolls⟩ :=
    drive_bootPolls hf 9 hkey hlit rfl rfl rfl rfl (by simp [hd, Diag.zero])
  obtain ⟨ok'', f, hfl, hend⟩ := drive_confirm hf hpolls hlit rfl rfl hop
  have hk : k + (4 * j + 17) = k + 4 + 4 + 4 * (j + 1) + 5 := by omega
  have hes : bringUpEvents t.params (j + 1) ++ t.trace =
      confirmEvents t.params ++ (bootPollEvents t.params.lit (j + 1) ++ (unlockEvents t.params.lit ++ t.trace)) := by
    simp [bringUpEvents]
  refine ⟨j, _, f, b, hj, ?_, hfl, hb, (congrArg (drive env · u) hk).trans (hes ▸ hend)⟩
  exact ⟨congrArg Diag.frameRdFail hd, congrArg Diag.hsGaveUp hd, congrArg Diag.pwrWrFail hd,
    (Bool.not_not late).symm, fun hl => by rw [hlate hl]⟩

/-- The lines send no bus request, and wait only for the reset pulse (R231, R233). -/
theorem State.lineEvents_counts (s : State) (hlit : s.params.lit = .shown) :
    (∀ c, busCount c s.lineEvents = 0) ∧ anyBusCount s.lineEvents = 0 ∧
      delayCount s.lineEvents = (if s.rstEn then 2 else 0) ∧
      waitedMs s.lineEvents = if s.rstEn then 20 else 0 := by
  unfold State.lineEvents State.pulseEvents
  cases s.rstEn <;> cases s.intEn <;> simp [hlit]

/-- The loop sends one BL_STATUS_RD and one 20 ms wait a poll (R236). -/
theorem bootPollEvents_counts (p : Nat) :
    (∀ c, busCount c (bootPollEvents .shown p) = if c = 0xA40010 then p else 0) ∧
      anyBusCount (bootPollEvents .shown p) = p ∧
      delayCount (bootPollEvents .shown p) = p ∧ waitedMs (bootPollEvents .shown p) = 20 * p := by
  induction p with
  | zero => simp [bootPollEvents]
  | succ p ih =>
    obtain ⟨hbus, hany, hdelay, hwait⟩ := ih
    refine ⟨fun c => ?_, ?_, ?_, ?_⟩
    · by_cases hc : c = 0xA40010 <;> simp [bootPollEvents, hbus, hc, eq_comm]
    · simp [bootPollEvents, hany]
    · simp [bootPollEvents, hdelay]
    · simp [bootPollEvents, hwait]
      omega

/-- The counts of R242. -/
theorem bringUpEvents_counts (s : State) (p : Nat) (hlit : s.params.lit = .shown) :
    InitEvents s.params.frameReadLen.toNat p s.rstEn (bringUpEvents s.params p ++ s.lineEvents) := by
  obtain ⟨hlBus, hlAny, hlDelay, hlWait⟩ := s.lineEvents_counts hlit
  obtain ⟨hpBus, hpAny, hpDelay, hpWait⟩ := bootPollEvents_counts p
  unfold bringUpEvents confirmEvents unlockEvents
  rw [hlit]
  refine ⟨?_, ?_, ?_, ?_⟩
  · cases s.params.frameReadLen <;> simp [hlBus, hpBus, FrameReadLen.toNat]
  · simp [hlAny, hpAny]
    omega
  · simp [hlDelay, hpDelay]
    omega
  · simp [hlWait, hpWait]
    omega

/-- Settles O57: the lines, then the bring-up; at most 10 + 53 steps. -/
theorem initRuns : Obligations.InitRuns := by
  unfold Obligations.InitRuns
  intro env s hf h hst hx hc
  have hstart := execInit_enters (s := s.noSession) hst hx
  rw [← h.noSession_eq hst]
  let v := s.noSession.initBase
  obtain ⟨n, hn, hlines⟩ := drive_lines hf hc v
  obtain ⟨j, d, f, b, hj, ⟨hframe, hshake, hpower, hloop, hlate⟩, hfl, hb, hend⟩ :=
    drive_bringUp hf hlines h.literals rfl rfl (show (1 : BitVec 4) ≠ 6 by decide) rfl
  have hpolls : (BitVec.ofNat 4 (1 + j)).toNat = 1 + j := by rw [BitVec.toNat_ofNat]; omega
  have hsettled := drive_atPort (env := env) (u := v.enter v.initPlace.1 v.initPlace.2) rfl (n + (4 * j + 16))
  refine ⟨_, n + (4 * j + 17), 1 + j, BitVec.ofNat 4 (1 + j), d, f, b,
    bringUpEvents s.params (j + 1) ++ v.lineEvents,
    hstart, by omega, by omega, by omega, hpolls, hfl, hb, ?_, hframe, hshake, hpower, hloop, hlate, ?_⟩
  · rw [Nat.add_comm 1 j]
    exact bringUpEvents_counts v (j + 1) h.literals
  · rw [List.append_assoc]
    exact hsettled.trans hend

end Sys2Proof.Machine
end

section
/-! ENTER_SLEEP, EXIT_SLEEP and CLOSE to their ends (R273 to R275): the answer to the one write, and the releases. -/

namespace Sys2Proof.Machine

variable {env : Env} {k : Nat} {s u t : State}

/-! ### A session between commands -/

/-- The state with a session standing and no command running (R37, R55, R99). -/
def State.inSession (s : State) : State := { s with st := .operational, lbl := .idle, seen := [], req := none }

/-- In OPERATIONAL one stands. -/
theorem State.Valid.inSession_eq (h : s.Valid) (ho : s.st = .operational) : s.inSession = s := by
  have hb : s.busy = false := s.busy_eq_false_iff.mpr (by tauto)
  have hseen : s.seen = [] := by simpa [hb] using h.torn
  obtain ⟨hl, hr⟩ := h.idle hb
  unfold State.inSession
  rw [← ho, ← hl, ← hseen, ← hr]

/-! ### The power commands -/

/-- The end of a power command: SLEEPING by the answer and by SLEEP_MODE_UPDATE (R273, R274). -/
theorem State.powerWritten_eq (target ok : Bool) (s : State) :
    s.powerWritten target ok =
      { s with
        st := .operational, lbl := .idle, seen := []
        sleeping := if ok then target else match s.params.sleepModeUpdate with
          | .optimistic => target
          | .onSuccess => s.sleeping
        diag := { s.diag with pwrWrFail := s.diag.pwrWrFail || !ok }
        result := if ok then .ok else .errBus } := by
  unfold State.powerWritten State.finish
  cases ok <;> cases s.params.sleepModeUpdate <;> simp

/-- Settles O31: both writes are at their places and end in `powerWritten`. -/
theorem powerWritesAnswered : Obligations.PowerWritesAnswered := by
  unfold Obligations.PowerWritesAnswered
  intro s ok rest hlit hl hin done
  have hsleep : s.params.lit.sleepCmd = [0x01, 0x08] := by simp [hlit]
  have hwake : s.params.lit.wakeCmd = [0x00, 0x08] := by simp [hlit]
  refine ⟨fun hop hr => ?_, fun hop hr => ?_⟩
  · have hend : exec .sleepWr s = .next (s.answered.powerWritten true ok) :=
      busWrite_answer_shown (by simp [hl, hop]) hlit (hsleep.symm ▸ hr) hin
    rw [State.powerWritten_eq, State.answered_eq hin] at hend
    exact hend
  · have hend : exec .wakeWr s = .next (s.answered.powerWritten false ok) :=
      busWrite_answer_shown (by simp [hl, hop]) hlit (hwake.symm ▸ hr) hin
    rw [State.powerWritten_eq, State.answered_eq hin] at hend
    exact hend

theorem proceed_pwWr_sleep (hl : s.lbl = .pwWr) (hop : s.curOp = 4) :
    s.proceed.run = busWrite true s.params.lit.sleepCmd (State.powerWritten true) s := by
  simp only [State.proceed, fetchBus, hl, hop, if_true, Action.run_runs, exec, execSleepWr, decide_true, Bool.and_self]

theorem proceed_pwWr_wake (hl : s.lbl = .pwWr) (hop : s.curOp = 5) :
    s.proceed.run = busWrite true s.params.lit.wakeCmd (State.powerWritten false) s := by
  have hne : (5 : BitVec 4) ≠ 4 := by decide
  simp only [State.proceed, fetchBus, hl, hop, hne, if_false, Action.run_runs, exec, execWakeWr, decide_true,
    Bool.and_self]

/-- A write whose answer `env` fixes (R84). -/
theorem drive_writeAnswer {d : List Byte} {w : BusReq} {next : Bool → State → State} {ok : Bool}
    (h : drive env k u = .next t) (hr : t.req = none) (hw : memWrite t.params.lit d = w)
    (ha : env (k + 1) (.bus w) = .writeAnswer ok)
    (hgo : ∀ r l es, (t.atPort r l es).proceed.run = busWrite true d next (t.atPort r l es)) :
    drive env (k + 2) u = .next (next ok (t.sent (.bus w))) := by
  subst hw
  have hask := drive_own h hr ((hgo _ _ _).trans (busWrite_issue rfl))
  exact drive_answered hask rfl ha rfl ((hgo _ _ _).trans (busWrite_answer rfl rfl))

/-- Settles O59: the command starts at its write, whose answer ends it. -/
theorem powerCommandsRun : Obligations.PowerCommandsRun := by
  unfold Obligations.PowerCommandsRun
  intro env s ok h ho
  have hsleep : memWrite s.params.lit s.params.lit.sleepCmd =
      { read := false, dev := 0x24, reg := 0x00, len := 2, data := [0x01, 0x08] } := by rw [h.literals]; rfl
  have hwake : memWrite s.params.lit s.params.lit.wakeCmd =
      { read := false, dev := 0x24, reg := 0x00, len := 2, data := [0x00, 0x08] } := by rw [h.literals]; rfl
  rw [← h.inSession_eq ho]
  intro done
  let start (op : BitVec 4) : State := (s.inSession.latchCmd op 0).powerStart
  refine ⟨fun ha => ⟨start 4, runSession_start (s := s.inSession) rfl, ?_⟩,
    fun ha => ⟨start 5, runSession_start (s := s.inSession) rfl, ?_⟩⟩
  · have hend := drive_writeAnswer (t := start 4) drive_start rfl hsleep ha fun _ _ _ => proceed_pwWr_sleep rfl rfl
    rw [State.powerWritten_eq] at hend
    exact hend
  · have hend := drive_writeAnswer (t := start 5) drive_start rfl hwake ha fun _ _ _ => proceed_pwWr_wake rfl rfl
    rw [State.powerWritten_eq] at hend
    exact hend

/-! ### CLOSE -/

theorem proceed_csRst (hl : s.lbl = .csRst) : s.proceed.run = .next s.releaseRst.closeInterrupt := by
  simp only [State.proceed, fetchBus, portStep, hl, Action.run_ends]

theorem proceed_csInt (hl : s.lbl = .csInt) : s.proceed.run = .next s.releaseInt.closeReset := by
  simp only [State.proceed, fetchBus, portStep, hl, Action.run_ends]

/-- Settles O40: the tick runs the release's label. -/
theorem closeReleases : Obligations.CloseReleases := by
  unfold Obligations.CloseReleases
  intro s rest hw hr hin
  obtain ⟨hrst, hint⟩ := State.pins_eq hw
  rw [← hrst, ← hint]
  intro cleared
  exact ⟨fun hl => step_tick_own hin hr (proceed_csRst hl), fun hl => step_tick_own hin hr (proceed_csInt hl)⟩

/-- The state a CLOSE leaves that has sent `es` (R275). -/
def State.closed (s : State) (es : List Event) : State :=
  { s with
    st := .uninit, lbl := .idle, result := .ok, rstClaimed := false, intClaimed := false, sleeping := false
    diag := Diag.zero, regs := Published.zero, seen := []
    frame := List.replicate s.params.lit.frameLayoutLen 0, blbuf := List.replicate s.params.lit.blFrameLen 0, hsb := 0
    touchIrq := false, req := none, inputs := [], trace := es ++ s.trace }

/-- From the end of the releases to the end of CLOSE. -/
theorem drive_closeReset (h : drive env k u = .next t.closeReset) (hr : t.req = none) (hop : t.curOp = 6)
    (hrst : t.rstClaimed = false) (hint : t.intClaimed = false) : drive env (k + 1) u = .next (t.closed []) := by
  refine (drive_own h hr (proceed_done rfl)).trans (congrArg _ ?_)
  simp [State.endCommand, State.finish, State.atPort, State.closeReset, State.closed, State.goto, State.sessionReset,
    State.publish, hop, hrst, hint]

/-- From the interrupt line's release, if it is claimed, to the end of CLOSE. -/
theorem drive_closeInterrupt (h : drive env k u = .next t.closeInterrupt) (hr : t.req = none) (hop : t.curOp = 6)
    (hrst : t.rstClaimed = false) :
    ∃ n ≤ 2, drive env (k + n) u =
      .next (t.closed (if t.intClaimed then [.gpioRelease t.intPin] else [])) := by
  unfold State.closeInterrupt at h
  cases hint : t.intClaimed
  · rw [if_neg (by simp [hint])] at h
    exact ⟨1, by decide, drive_closeReset h hr hop hrst hint⟩
  · rw [if_pos hint] at h
    have hreleased := drive_own h hr (proceed_csInt rfl)
    exact ⟨2, by decide, drive_closeReset hreleased rfl hop hrst rfl⟩

/-- An event sent before CLOSE's is the first that CLOSE has sent. -/
theorem State.closed_emit (s : State) (e : Event) (es : List Event) : (s.emit e).closed es = s.closed (es ++ [e]) := by
  simp [State.closed]

/-- From CLOSE's start to its end. -/
theorem drive_closeStart (env : Env) (hr : s.req = none) (hop : s.curOp = 6) :
    ∃ n ≤ 3, drive env n s.closeStart =
      .next (s.closed ((if s.intClaimed then [.gpioRelease s.intPin] else []) ++
        if s.rstClaimed then [.gpioRelease s.rstPin] else [])) := by
  have hstart : s.closeStart =
      if s.rstClaimed then s.enter .closing .csRst else State.closeInterrupt { s with st := .closing } := rfl
  rw [hstart]
  by_cases hrst : s.rstClaimed = true
  · have hreleased := drive_own (env := env) (u := s.enter .closing .csRst) drive_start hr (proceed_csRst rfl)
    obtain ⟨n, hn, hend⟩ := drive_closeInterrupt hreleased rfl hop rfl
    rw [if_pos hrst, if_pos hrst, ← State.closed_emit]
    exact ⟨0 + 1 + n, by omega, hend⟩
  · obtain ⟨n, hn, hend⟩ := drive_closeInterrupt (env := env) (t := { s with st := .closing }) drive_start hr hop
      (Bool.eq_false_iff.mpr hrst)
    rw [if_neg hrst, if_neg hrst, List.append_nil]
    exact ⟨0 + n, by omega, hend⟩

/-- Settles O60: `drive_closeStart`. -/
theorem closeRuns : Obligations.CloseRuns := by
  unfold Obligations.CloseRuns
  intro env s h ho
  obtain ⟨hrst, hint⟩ := State.pins_eq (s := s) (by simp [h.literals])
  rw [← hrst, ← hint, ← h.inSession_eq ho]
  obtain ⟨n, hn, hend⟩ := drive_closeStart (s := s.inSession.latchCmd 6 0) env rfl rfl
  exact ⟨_, n, runSession_start (s := s.inSession) rfl, hn, hend⟩

end Sys2Proof.Machine
end

section
/-! The poll (R170 to R173, R203 to R205, R270 to R272, R276, R278): its decode and copy, its handshake attempt by
attempt, and READ_DATA and GET_COORDS to their ends in a driven run against a fair environment. -/

namespace Sys2Proof.Machine

variable {env : Env} {k : Nat} {s u t : State}

/-! ### The decode and the copy -/

/-- A point as numbers: two big-endian words and a byte (R170, R171). -/
theorem decodePoint_toNat (f : List Byte) (o : Nat) :
    (decodePoint f o).x.toNat = 256 * (f.getD o 0).toNat + (f.getD (o + 1) 0).toNat ∧
      (decodePoint f o).y.toNat = 256 * (f.getD (o + 2) 0).toNat + (f.getD (o + 3) 0).toNat ∧
      (decodePoint f o).s = f.getD (o + 4) 0 := by
  simp only [decodePoint, be16_toNat, mul_comm 256, and_self]

/-- PL_DEC writes what R270 and R276 ask for. -/
theorem decodedRegs_decodedFrom {l : Literals} (hlit : l = .shown) (f : List Byte) (r : Published) :
    DecodedFrom f r (decodedRegs l f r) where
  count := hlit ▸ validCount_toNat _
  point0 := by
    dsimp only [decodedRegs]
    split
    · exact decodePoint_toNat f 3
    · rfl
  point1 := by
    dsimp only [decodedRegs]
    split
    · exact decodePoint_toNat f 9
    · rfl
  others := ⟨rfl, rfl, rfl, rfl, rfl, rfl⟩

/-- OCOUNT holds the smaller of the count and max_count, which two bits hold (R49). -/
theorem minCount_toNat (n : BitVec 2) (m : Nat) : (minCount n m).toNat = min n.toNat m := by
  have hn := n.isLt
  rw [minCount, BitVec.toNat_ofNat]
  omega

/-- The copy writes what R272 asks for. -/
theorem copiedRegs_copiedFrom (clear : GetxyClear) (m : Nat) (r : Published) :
    CopiedFrom clear m r (copiedRegs clear m r) where
  slot0 := rfl
  slot1 := rfl
  count := by cases clear <;> rfl
  ocount := minCount_toNat _ _
  any := decide_eq_true_iff.trans (not_congr (BitVec.toNat_eq (y := 0)))
  others := ⟨rfl, rfl, rfl, rfl⟩

/-- The decode of READ_DATA (R270). -/
theorem State.pollDecode_readData (hop : s.curOp ≠ 3) :
    s.pollDecode = (s.publish (decodedRegs s.params.lit s.frame s.regs)).goto .done :=
  if_neg hop

/-- The decode of GET_COORDS, and its copy (R270, R272). -/
theorem State.pollDecode_getCoords (hop : s.curOp = 3) :
    s.pollDecode = ((s.publish (decodedRegs s.params.lit s.frame s.regs)).publish
      (copiedRegs s.params.getxyClear s.maxCount (decodedRegs s.params.lit s.frame s.regs))).goto .done :=
  if_pos hop

theorem proceed_plDec (hl : s.lbl = .plDec) : s.proceed.run = .next s.pollDecode := by
  simp only [State.proceed, fetchBus, portStep, hl, Action.run_ends]

/-- Settles O41: the tick runs PL_DEC. -/
theorem pollDecodes : Obligations.PollDecodes := by
  unfold Obligations.PollDecodes
  intro s rest hlit hr hin hl
  have hstep := step_tick_own hin hr (proceed_plDec hl)
  refine ⟨_, decodedRegs_decodedFrom hlit s.frame s.regs, fun hop => ?_, fun hop =>
    ⟨_, copiedRegs_copiedFrom s.params.getxyClear s.curArg.toNat _, ?_⟩⟩
  · exact hstep.trans (congrArg _ (State.pollDecode_readData hop))
  · rw [List.append_cons s.seen]
    exact hstep.trans (congrArg _ (State.pollDecode_getCoords hop))

/-! ### What a handshake sends -/

/-- What a failed attempt sends, the newest first: its read, the write of a byte if the read succeeded, and the retry
delay (R203, R204). -/
def failedAttempt : Option Byte → List Event
  | none => [.delay 5, .bus (memRead .shown 1)]
  | some x => [.delay 5, .bus (memWrite .shown [x]), .bus (memRead .shown 1)]

/-- What a handshake of `a` attempts has sent (R203 to R205, R278). -/
structure HandshakeEvents (a : Nat) (gaveUp : Bool) (es : List Event) : Prop where
  /-- Nothing but bus requests and delays. -/
  only : es.length = anyBusCount es + delayCount es
  /-- One HS_RD for each attempt. -/
  reads : busCount 0xA40001 es = a
  /-- At most one HS_WR for each, and one at least if one succeeded. -/
  writes : busCount 0x240001 es ≤ a ∧ (gaveUp = false → 1 ≤ busCount 0x240001 es)
  /-- No bus request of another kind. -/
  others : ∀ c, c ≠ 0xA40001 → c ≠ 0x240001 → busCount c es = 0
  buses : anyBusCount es = a + busCount 0x240001 es
  /-- One 5 ms delay for each attempt that failed: all, or all but the last. -/
  delays : delayCount es + (if gaveUp then 0 else 1) = a ∧ waitedMs es = 5 * delayCount es

/-- One attempt whose write succeeds. -/
theorem handshakeEvents_success (x : Byte) :
    HandshakeEvents 1 false [.bus (memWrite .shown [x]), .bus (memRead .shown 1)] := by
  constructor <;> simp +contextual [eq_comm]

/-- One attempt that fails and is the last. -/
theorem handshakeEvents_failure (w : Option Byte) : HandshakeEvents 1 true (failedAttempt w) := by
  cases w <;> constructor <;> simp +contextual [failedAttempt, eq_comm]

/-- Failed attempts, then the others. -/
theorem HandshakeEvents.append {a b : Nat} {gaveUp : Bool} {es fs : List Event} (h : HandshakeEvents a gaveUp es)
    (hf : HandshakeEvents b true fs) : HandshakeEvents (a + b) gaveUp (es ++ fs) := by
  obtain ⟨honly, hreads, ⟨hle, hge⟩, hothers, hbuses, hdelays, hwaited⟩ := h
  obtain ⟨fonly, freads, ⟨fle, -⟩, fothers, fbuses, fdelays, fwaited⟩ := hf
  rw [if_pos rfl] at fdelays
  constructor <;> simp only [counts_append, List.length_append]
  case only => omega
  case reads => omega
  case writes => exact ⟨by omega, fun hg => Nat.le_add_right_of_le (hge hg)⟩
  case others => exact fun c hr hw => by rw [hothers c hr hw, fothers c hr hw]
  case buses => omega
  case delays => omega

/-- A poll sends its frame read before its handshake (R205). -/
theorem HandshakeEvents.poll {a : Nat} {gaveUp : Bool} {es : List Event} (h : HandshakeEvents a gaveUp es)
    (n : FrameReadLen) (h1 : 1 ≤ a) (h20 : a ≤ 20) (hlast : gaveUp = true → a = 20) :
    PollEvents n.toNat a gaveUp (es ++ [.bus (memRead .shown n.toNat)]) := by
  obtain ⟨honly, hreads, hwrites, hothers, hbuses, hdelays, hwaited⟩ := h
  constructor
  case first => exact List.getLast?_concat
  case only => simp [honly, Nat.add_right_comm]
  case attempts => exact ⟨h1, h20, hlast⟩
  case reads => cases n <;> simp [hreads, FrameReadLen.toNat]
  case writes => cases n <;> simpa [FrameReadLen.toNat] using hwrites
  case buses => cases n <;> simp [hothers, hbuses, FrameReadLen.toNat] <;> omega
  case delays =>
    have hcount : delayCount (es ++ [.bus (memRead .shown n.toNat)]) = delayCount es := by simp
    refine ⟨hcount.trans ?_, by simp [hwaited]⟩
    cases gaveUp with
    | false => exact Nat.eq_sub_of_add_eq hdelays
    | true => exact hdelays.trans (hlast rfl)

/-! ### The handshake in a driven run -/

theorem proceed_plRd (hl : s.lbl = .plRd) :
    s.proceed.run =
      busRead true s.params.frameReadLen.toNat State.clearFrame State.fillFrame State.frameRead s := by
  simp only [State.proceed, fetchBus, hl, Action.run_runs, exec, execFrameRd, decide_true, Bool.or_true, Bool.and_self]

theorem proceed_hsRd (hl : s.lbl = .hsRd) :
    s.proceed.run = busRead true 1 State.clearHsb State.fillHsb State.handshakeRead s := by
  simp only [State.proceed, fetchBus, hl, Action.run_runs, exec, execHsRd, decide_true]

theorem proceed_hsWr (hl : s.lbl = .hsWr) :
    s.proceed.run = busWrite true [flipHsBit s.params.lit s.hsb] State.handshakeWritten s := by
  simp only [State.proceed, fetchBus, hl, Action.run_runs, exec, execHsWr, decide_true, Bool.and_self]

theorem proceed_hsDly (hl : s.lbl = .hsDly) :
    s.proceed.run = delayStep s.params.lit.hsRetryMs State.handshakeDelayed s := by
  simp only [State.proceed, fetchBus, portStep, hl, Action.run_ends]

/-- The handshake at a label with nothing outstanding: HSB, and what it has sent. -/
def State.shaking (s : State) (l : Lbl) (b : Byte) (es : List Event) : State :=
  { s with lbl := l, hsb := b, touchIrq := false, req := none, inputs := [], trace := es ++ s.trace }

theorem State.handshakeRead_goto (s : State) (ok : Bool) :
    s.handshakeRead ok = s.goto (if ok then .hsWr else .hsDly) := by
  cases ok <;> rfl

/-- The read of an attempt (R201, R203). -/
theorem drive_shakeRead (hf : env.fair) (h : drive env k u = .next t) (hlit : t.params.lit = .shown)
    (hl : t.lbl = .hsRd) (hr : t.req = none) :
    ∃ (ok : Bool) (b : Byte), drive env (k + 2) u =
      .next (t.shaking (if ok then .hsWr else .hsDly) b [.bus (memRead .shown 1)]) := by
  obtain ⟨ok, d, -, hread⟩ := drive_read (n := fun _ => 1) hf h hl hr proceed_hsRd (by decide) rfl rfl rfl
  rw [State.handshakeRead_goto] at hread
  dsimp only [State.goto, State.fillHsb, State.sent, State.clearHsb, State.atPort] at hread
  rw [hlit] at hread
  exact ⟨ok, d.headD 0, hread⟩

/-- The write of an attempt (R202, R203). -/
theorem drive_shakeWrite (hf : env.fair) {b : Byte} {es : List Event}
    (h : drive env k u = .next (t.shaking .hsWr b es)) (hlit : t.params.lit = .shown) :
    ∃ (ok : Bool) (x : Byte), drive env (k + 2) u =
      .next ((t.shaking .hsWr b (.bus (memWrite .shown [x]) :: es)).handshakeWritten ok) := by
  obtain ⟨ok, ha⟩ := hf.write (k + 1) (r := memWrite .shown [flipHsBit .shown b]) rfl
  have hw : memWrite t.params.lit [flipHsBit t.params.lit b] = memWrite .shown [flipHsBit .shown b] := by rw [hlit]
  exact ⟨ok, _, drive_writeAnswer h rfl hw ha fun _ _ _ => proceed_hsWr rfl⟩

/-- One attempt: its write succeeds and ends the handshake, or it fails and the retry delay is over (R203). -/
theorem drive_attempt (hf : env.fair) (h : drive env k u = .next t) (hlit : t.params.lit = .shown)
    (hl : t.lbl = .hsRd) (hr : t.req = none) :
    (∃ b x, drive env (k + 4) u = .next
      (t.shaking .hsWr b [.bus (memWrite .shown [x]), .bus (memRead .shown 1)]).endHandshake) ∨
    ∃ n ≤ 6, ∃ w b, drive env (k + n) u = .next (t.shaking .hsDly b (failedAttempt w)).handshakeDelayed := by
  have hms : t.params.lit.hsRetryMs = 5 := by simp [hlit]
  have hfail {j : Nat} {b : Byte} {es : List Event} (hat : drive env j u = .next (t.shaking .hsDly b es)) :
      drive env (j + 2) u = .next (t.shaking .hsDly b (.delay 5 :: es)).handshakeDelayed := by
    rw [← hms]
    exact drive_delay hf hat rfl rfl proceed_hsDly
  obtain ⟨_ | _, b, hread⟩ := drive_shakeRead hf h hlit hl hr
  · exact .inr ⟨4, by decide, none, b, hfail hread⟩
  · obtain ⟨_ | _, x, hwrite⟩ := drive_shakeWrite hf hread hlit
    · exact .inr ⟨6, by decide, some x, b, hfail hwrite⟩
    · exact .inl ⟨b, x, hwrite⟩

/-- The handshake at its end, after `i` more attempts (R203). -/
def State.shaken (s : State) (i : Nat) (gaveUp : Bool) (b : Byte) (es : List Event) : State :=
  State.endHandshake { s.shaking .hsRd b es with ha := s.ha + i, diag := { s.diag with hsGaveUp := gaveUp } }

/-- An attempt before the others is the first of all. -/
theorem State.shaken_again (s : State) (i : Nat) (gaveUp : Bool) (b b' : Byte) (es fs : List Event) :
    State.shaken { s.shaking .hsRd b fs with ha := s.ha + 1 } i gaveUp b' es =
      s.shaken (i + 1) gaveUp b' (es ++ fs) := by
  simp [State.shaken, State.shaking, State.endHandshake, State.publish, State.goto, Nat.add_assoc, Nat.add_comm 1]

/-- The handshake from an attempt on, `n` attempts before the last: it ends after `i` more (R203). -/
theorem drive_handshake {k : Nat} {t : State} (hf : env.fair) (n : Nat) (h : drive env k u = .next t)
    (hlit : t.params.lit = .shown) (hl : t.lbl = .hsRd) (hr : t.req = none) (hn : t.ha + n = 20)
    (hd : { t.diag with hsGaveUp := false } = t.diag) :
    ∃ (i m : Nat) (gaveUp : Bool) (b : Byte) (es : List Event),
      i ≤ n ∧ m ≤ 6 * (i + 1) ∧ (gaveUp = true → i = n) ∧ HandshakeEvents (i + 1) gaveUp es ∧
      drive env (k + m) u = .next (t.shaken i gaveUp b es) := by
  have hmax : t.params.lit.hsMaxAttempts = 20 := by simp [hlit]
  obtain ⟨b, x, hend⟩ | ⟨m, hm, w, b, hfailed⟩ := drive_attempt hf h hlit hl hr
  · refine ⟨0, 4, false, b, _, Nat.zero_le _, by decide, nofun, handshakeEvents_success x, hend.trans ?_⟩
    rw [State.shaken, hd]
    rfl
  · cases n with
    | zero =>
      rw [State.handshakeDelayed_last (s := t.shaking .hsDly b _) (hn.trans hmax.symm)] at hfailed
      exact ⟨0, m, true, b, _, Nat.le_refl _, hm, fun _ => rfl, handshakeEvents_failure w, hfailed⟩
    | succ n =>
      have hmore : t.ha ≠ t.params.lit.hsMaxAttempts := by omega
      rw [State.handshakeDelayed_again (s := t.shaking .hsDly b _) hmore] at hfailed
      have hn' : t.ha + 1 + n = 20 := by omega
      obtain ⟨i, m', gaveUp, b', es, hi, hm', hlast, hes, hend⟩ :=
        drive_handshake hf n hfailed hlit rfl rfl hn' hd
      refine ⟨i + 1, m + m', gaveUp, b', _, Nat.succ_le_succ hi, by omega, fun hg => congrArg (· + 1) (hlast hg),
        hes.append (handshakeEvents_failure w), ?_⟩
      rw [← Nat.add_assoc, hend, ← State.shaken_again]
      rfl
termination_by n

/-! ### The whole -/

/-- A poll from its start to the decode: the frame read, then the handshake (R203, R205, R270). -/
theorem drive_poll (hf : env.fair) (hlit : s.params.lit = .shown) (hr : s.req = none) (op arg : BitVec 4) :
    ∃ (m a : Nat) (ok gaveUp : Bool) (d : List Byte) (b : Byte) (attempts : BitVec 5) (es : List Event),
      m ≤ 122 ∧ env 1 (.bus (memRead .shown s.params.frameReadLen.toNat)) = .readAnswer ok d ∧
      attempts.toNat = a ∧ PollEvents s.params.frameReadLen.toNat a gaveUp es ∧
      drive env m (s.latchCmd op arg).pollStart = .next
        { s with
          st := .poll, lbl := .plDec, curOp := op, curArg := arg
          diag := { s.diag with frameRdFail := !ok, hsGaveUp := gaveUp }
          frame := readBuffer 14 d, hsb := b, ha := a, regs := { s.regs with hsAttempts := attempts }
          seen := [s.regs, { s.regs with hsAttempts := attempts }]
          touchIrq := false, req := none, inputs := [], trace := es ++ s.trace } := by
  obtain ⟨ok, d, ha, hread⟩ := drive_read (t := (s.latchCmd op arg).pollStart) (n := fun p => p.frameReadLen.toNat)
    hf drive_start rfl hr proceed_plRd (frameReadLen_lt _) rfl rfl rfl
  rw [State.frameRead_of_plRd _ ok rfl] at hread
  dsimp only [State.pollFrameRead, State.startHandshake, State.goto, State.fillFrame, State.sent, State.clearFrame,
    State.atPort, State.pollStart, State.enter, State.latchCmd] at ha hread
  rw [hlit] at ha hread
  obtain ⟨i, m, gaveUp, b, es, hi, hm, hlast, hes, hend⟩ := drive_handshake hf 19 hread hlit rfl rfl rfl rfl
  have hall : gaveUp = true → 1 + i = 20 := fun hg => by rw [hlast hg]
  refine ⟨0 + 2 + m, 1 + i, ok, gaveUp, d, b, BitVec.ofNat 5 (1 + i), _, by omega, ha, ?_,
    (Nat.add_comm i 1 ▸ hes).poll _ (by omega) (by omega) hall, ?_⟩
  · rw [BitVec.toNat_ofNat]
    omega
  · rw [List.append_assoc, ← latch_zero]
    exact hend

/-- Settles O55: `drive_poll`, the decode and the end. -/
theorem readDataRuns : Obligations.ReadDataRuns := by
  unfold Obligations.ReadDataRuns
  intro env s hf h ho
  rw [← h.inSession_eq ho]
  obtain ⟨m, a, ok, gaveUp, d, b, attempts, es, hm, hread, ha, hes, hpoll⟩ :=
    drive_poll (s := s.inSession) hf h.literals rfl 2 0
  have hdecoded := drive_own hpoll rfl ((proceed_plDec rfl).trans (congrArg _ (State.pollDecode_readData
    (show (2 : BitVec 4) ≠ 3 by decide))))
  have hend := drive_own hdecoded rfl ((proceed_done rfl).trans (congrArg _ (State.endCommand_operational
    (show (2 : BitVec 4) ≠ 6 by decide))))
  exact ⟨_, m + 1 + 1, a, ok, gaveUp, d, b, attempts, _, es, runSession_start (s := s.inSession) rfl, by omega,
    hread, ha, hes, decodedRegs_decodedFrom h.literals _ _, hend⟩

/-- Settles O56: `drive_poll`, the decode with its copy, and the end. -/
theorem getCoordsRuns : Obligations.GetCoordsRuns := by
  unfold Obligations.GetCoordsRuns
  intro env s n hf h ho hn
  have hmax : (BitVec.ofNat 4 n).toNat = n := by
    rw [BitVec.toNat_ofNat]
    omega
  rw [← h.inSession_eq ho]
  obtain ⟨m, a, ok, gaveUp, d, b, attempts, es, hm, hread, ha, hes, hpoll⟩ :=
    drive_poll (s := s.inSession) hf h.literals rfl 3 (BitVec.ofNat 4 n)
  have hdecoded := drive_own hpoll rfl ((proceed_plDec rfl).trans (congrArg _ (State.pollDecode_getCoords rfl)))
  have hend := drive_own hdecoded rfl ((proceed_done rfl).trans (congrArg _ (State.endCommand_operational
    (show (3 : BitVec 4) ≠ 6 by decide))))
  have hcopied (r : Published) :
      CopiedFrom s.params.getxyClear n r (copiedRegs s.params.getxyClear (BitVec.ofNat 4 n).toNat r) :=
    hmax.symm ▸ copiedRegs_copiedFrom _ _ r
  exact ⟨_, m + 1 + 1, a, ok, gaveUp, d, b, attempts, _, _, es, runSession_start (s := s.inSession) rfl, by omega,
    hread, ha, hes, decodedRegs_decodedFrom h.literals _ _, hcopied _, hend⟩

end Sys2Proof.Machine
end

section
/-! What the waiting labels ask of the delay timer (R330). -/

namespace Sys2Proof.Machine

variable {s : State} {rest : List Input}

/-- At a label that waits for `m`, a tick with nothing outstanding asks the delay timer for it. -/
theorem step_asksDelay {m ms : Byte} {next : State → State} (hin : s.inputs = .tick :: rest) (hr : s.req = none)
    (hgo : ({ s with touchIrq := false, inputs := rest } : State).proceed.run =
      delayStep m next { s with touchIrq := false, inputs := rest }) (hm : m = ms) :
    step s = .next
      { s with touchIrq := false, inputs := rest, req := some (.delay ms), trace := .delay ms :: s.trace } := by
  subst hm
  exact step_tick_own hin hr (hgo.trans (awaitPort_issue hr))

/-- Settles O35: `step_asksDelay` at each of the seven waiting labels. -/
theorem delaysRequested : Obligations.DelaysRequested := by
  unfold Obligations.DelaysRequested
  intro s rest hlit hr hin ask
  obtain ⟨hretry, hpoll, hhold, hsoft, hkey, hconfirm⟩ := Literals.shown_waits
  rw [← hlit] at hretry hpoll hhold hsoft hkey hconfirm
  refine ⟨?_, fun hl => ?_, fun hl => ?_, ?_, fun hl => ?_⟩
  · rintro (hl | hl)
    · exact step_asksDelay hin hr (proceed_rsHold1 hl) hhold
    · exact step_asksDelay hin hr (proceed_rsHold2 hl) hhold
  · exact step_asksDelay hin hr (proceed_srWait hl) hsoft
  · exact step_asksDelay hin hr (proceed_kyWait hl) hkey
  · rintro (hl | hl)
    · exact step_asksDelay hin hr (proceed_blDly hl) hpoll
    · exact step_asksDelay hin hr (proceed_eoDly hl) hconfirm
  · exact step_asksDelay hin hr (proceed_hsDly hl) hretry

end Sys2Proof.Machine
end

section
/-! The interrupt output (R326, R327): the step of an edge report, and that no other step makes a `touch_irq`. -/

namespace Sys2Proof.Machine

variable {s t : State} {rest : List Input}

/-! ### An edge report -/

theorem step_pinEdge {pin : Nat} {edge : Edge} (hin : s.inputs = .pinEdge pin edge :: rest) :
    step s = .next (s.quiet.taken.pinEdge pin edge) := by
  simp only [step, action, hin, Action.run_ends]

/-- The step of an edge report (R326): it pulses and sends `touch_irq` if the edge is the active one of a claimed
INT_PIN, and changes no register. -/
theorem step_pinEdge_eq {pin : Nat} {edge : Edge} (hin : s.inputs = .pinEdge pin edge :: rest) :
    let active : Bool := s.intClaimed && pin = s.intPin && edge = s.activeEdge
    step s = .next
      { s with
        inputs := rest, touchIrq := active
        trace := if active then .touchIrq :: s.trace else s.trace } := by
  intro active
  rw [step_pinEdge hin, State.quiet_taken hin]
  change Host.Outcome.next (if active then { s with inputs := rest, touchIrq := true, trace := .touchIrq :: s.trace }
    else { s with inputs := rest, touchIrq := false }) = _
  cases active <;> rfl

/-- With the interrupt line unclaimed an edge is ignored (R326). -/
theorem State.pinEdge_of_unclaimed (pin : Nat) (edge : Edge) (hc : s.intClaimed = false) : s.pinEdge pin edge = s := by
  simp [State.pinEdge, hc]

/-! ### No other step makes a `touch_irq` -/

/-- From `s` to `t` no `touch_irq` is made: in `t` the output is low, and the event is not what was sent since `s`. -/
def State.NoPulse (s t : State) : Prop := t.touchIrq = false ∧ t.trace ≠ .touchIrq :: s.trace

theorem State.NoPulse.of_trace_eq (hp : t.touchIrq = false) (ht : t.trace = s.trace) : s.NoPulse t :=
  ⟨hp, ht ▸ (List.cons_ne_self _ _).symm⟩

theorem State.NoPulse.of_event {e : Event} (hp : t.touchIrq = false) (ht : t.trace = e :: s.trace)
    (he : e ≠ .touchIrq) : s.NoPulse t :=
  ⟨hp, fun h => he (List.head_eq_of_cons_eq (ht.symm.trans h))⟩

/-- The TCB's own move sends nothing, its label's request, or a GPIO event. -/
theorem State.Goes.noPulse (h : s.Goes t) (hp : t.touchIrq = false) : s.NoPulse t := by
  cases h with
  | @asks q _ _ =>
    have htrace : (s.zeroed.issue q).trace = q.event :: s.trace := by
      rw [← s.zeroed_silent.trace]
      rfl
    refine .of_event hp htrace ?_
    cases q <;> exact nofun
  | tornDown | asserted | released | intReleased => exact .of_event hp rfl nofun
  | rstReleased => exact .of_event hp (State.closeInterrupt_silent s.releaseRst).trace nofun
  | rstClaimed _ ok => exact .of_trace_eq hp (State.rstClaimAnswered_silent ok s.answered).trace
  | intClaimed _ ok => exact .of_trace_eq hp (State.intClaimAnswered_silent ok s.answered).trace
  | bootRead _ ok d => exact .of_trace_eq hp (State.bootStatusRead_silent ok (s.answered.fillBlbuf d)).trace
  | shakeRead _ ok d => exact .of_trace_eq hp (State.handshakeRead_silent ok (s.answered.fillHsb d)).trace
  | shakeWritten _ ok => exact .of_trace_eq hp (State.handshakeWritten_silent ok s.answered).trace
  | shakeDelayed => exact .of_trace_eq hp (State.handshakeDelayed_silent s.answered).trace
  | decoded => exact .of_trace_eq hp s.pollDecode_silent.trace
  | _ => exact .of_trace_eq hp rfl

/-- From a state without a pulse the TCB's own move makes none. -/
theorem proceed_noPulse (hp : s.touchIrq = false) (h : s.proceed.run = .next t) : s.NoPulse t :=
  (proceed_goes h).noPulse ((proceed_moves h).touchIrq.trans hp)

/-- A step makes no pulse, or it is an edge report while the interrupt line is claimed (R326, R327). -/
theorem step_noPulse (h : step s = .next t) :
    s.NoPulse t ∨ ∃ pin edge rest, s.inputs = .pinEdge pin edge :: rest ∧ s.intClaimed = true := by
  rcases step_cases h with ⟨_, _, rfl⟩ | ⟨_, _, _, _, rfl⟩ | ⟨_, _, _, _, _, _, rfl⟩ | ⟨_, _, _, _, hb, hd, hexec⟩ |
    ⟨_, _, _, _, rfl⟩ | ⟨_, _, _, _, _, _, rfl⟩ | ⟨_, _, _, _, rfl⟩ | ⟨pin, edge, rest, hin, rfl⟩ | ⟨_, _, rfl⟩ |
    ⟨_, _, _, rfl⟩ | ⟨_, _, _, hgo⟩ | ⟨_, _, _, _, _, rfl⟩ | ⟨_, hgo⟩
  · -- the hardware reset
    exact .inl (.of_trace_eq rfl rfl)
  · -- a write to CMD: dropped, illegal, or run
    exact .inl (.of_trace_eq rfl rfl)
  · exact .inl (.of_trace_eq rfl rfl)
  · have hsilent := (command_starts (s := s.quiet.taken) hd hb hexec).silent
    exact .inl (.of_trace_eq hsilent.touchIrq hsilent.trace)
  · -- a write to CFG in its window, and a write without effect
    exact .inl (.of_trace_eq rfl rfl)
  · exact .inl (.of_trace_eq rfl rfl)
  · -- a host read and an edge report
    exact .inl (.of_event rfl rfl nofun)
  · cases hc : s.intClaimed with
    | true => exact .inr ⟨pin, edge, rest, hin, rfl⟩
    | false =>
      rw [State.pinEdge_of_unclaimed pin edge (s := s.quiet.taken) hc]
      exact .inl (.of_trace_eq rfl rfl)
  · -- a late answer, and a tick while a request is outstanding
    exact .inl (.of_trace_eq rfl rfl)
  · exact .inl (.of_trace_eq rfl rfl)
  · exact .inl (proceed_noPulse (s := s.quiet.taken) rfl hgo)
  · -- an answer that fits no request
    exact .inl (.of_trace_eq rfl rfl)
  · exact .inl (proceed_noPulse (s := s.quiet) rfl hgo)

/-- Settles O43: `step_pinEdge_eq` for the edge, `step_noPulse` for the converse. -/
theorem touchIrqOnActiveEdge : Obligations.TouchIrqOnActiveEdge := by
  unfold Obligations.TouchIrqOnActiveEdge
  constructor
  · intro s pin e rest hw hin active
    rw [step_pinEdge_eq hin, (State.pins_eq hw).2]
    rfl
  · intro s t h hpulse
    refine (step_noPulse h).resolve_left fun ⟨hlow, htrace⟩ => ?_
    obtain hhigh | hsent := hpulse
    · rw [hlow] at hhigh
      cases hhigh
    · exact htrace hsent

end Sys2Proof.Machine
end

section
/-! The hardware reset (R58, R360) and the idle machine (R52). -/

namespace Sys2Proof.Machine

variable {s : State} {rest : List Input}

/-- A hardware reset is taken at once, whatever the TCB is doing (R360). -/
theorem step_hardwareReset (hin : s.inputs = .hardwareReset :: rest) :
    step s = .next s.quiet.taken.hardwareReset := by
  simp only [step, action, hin, Action.run_ends]

/-- At IDLE the TCB's own move issues nothing and changes nothing (R52). -/
theorem proceed_idle (hl : s.lbl = .idle) : s.proceed.run = .next s := by
  simp only [State.proceed, fetchBus, portStep, hl, Action.run_ends]

/-- Settles O1: `step_hardwareReset`, where R58's table is `State.reset`, and `proceed_idle`. -/
theorem hardwareResetSetsEveryField : Obligations.HardwareResetSetsEveryField := by
  unfold Obligations.HardwareResetSetsEveryField
  constructor
  · intro s rest hin
    rw [step_hardwareReset hin, State.quiet_taken hin]
    rfl
  · intro s hl hin
    calc step s
      _ = s.quiet.proceed.run := step_nil hin
      _ = .next s.quiet := proceed_idle hl

end Sys2Proof.Machine
end
